-- ==== Sys2Proof/Word.lean ====
section
/-! DEFINITION. The word types of the Mirvada 318 and the one saturating count every counter uses. -/

namespace Sys2Proof

/-- A byte of host memory or of the vehicle link. -/
abbrev Byte := BitVec 8

/-- A 32-bit quantity that wraps: serials, presentation times, media clocks, register words. -/
abbrev Word := BitVec 32

/-- One more on a 16-bit counter that saturates at 65,535 (00_scope.md, section 0.4, Counters). -/
def bump (n : Nat) : Nat := min (n + 1) 65535

end Sys2Proof
end

