-- ==== Sys2Proof/Syntax.lean ====
section
/-! DEFINITION. The commands of the Mirvada 318: one constructor of `Instr` per row of spec/opcode_table.json. -/

namespace Sys2Proof

/-- The three screens (00_scope.md, section 0.4): 0 centre, 1 rear left, 2 rear right. -/
inductive ScreenId where
  | centre
  | left
  | right
  deriving DecidableEq, Repr

/-- The two film streams. -/
inductive StreamId where
  | a
  | b
  deriving DecidableEq, Repr

/-- The six chains (R8, Table 1-3). -/
inductive ChainId where
  | plan (i : ScreenId)
  | film (x : StreamId)
  | chime
  deriving DecidableEq, Repr

/-- The five message kinds of the vehicle link (Table 6-2). -/
inductive Kind where
  | steer
  | speed
  | range
  | gear
  | dim
  deriving DecidableEq, Repr

/-- What the link port reports during one step (Log 5): the addresses at which a read fails, and the addresses at
which the write of an entry's status or report word fails. An access fails when one of its bytes is listed. -/
structure LinkErrs where
  reads : List Nat
  writes : List Nat
  deriving DecidableEq, Repr

/-- A host write to BOOKADDR: whole, or one 4-byte half (R164). -/
inductive BookWrite where
  | whole (v : BitVec 64)
  | low (v : Word)
  | high (v : Word)
  deriving DecidableEq, Repr

/-- What a pipe was reading when a fetch failed (R56): a layer of the plan by its record number, or an element of
the takeover picture. -/
inductive FetchElement where
  | layer (idx : Nat)
  | takeoverCamera
  | takeoverCells
  deriving DecidableEq, Repr

/-- Which word of an entry a status write error concerns (R16). -/
inductive EntryWord where
  | status
  | report
  deriving DecidableEq, Repr

/-- The levels sampled for one byte on the vehicle link (R98): the start bit at its middle, eight data bits (the
first sampled is bit 0), the parity bit and the stop bits; a bit the settings do not use is not looked at. -/
structure LineByte where
  start : Bool
  data : Byte
  parity : Bool
  stop1 : Bool
  stop2 : Bool
  deriving DecidableEq, Repr

/-- The commands: one constructor per row of the table, in the table's order. -/
inductive Instr where
  /-- POWER_ON_RESET (R172). -/
  | powerOnReset
  /-- SOFT_RESET (R172): CTRL.SOFT_RESET written 1. -/
  | softReset
  /-- BOOKADDR_WRITE (R164). -/
  | bookaddrWrite (w : BookWrite)
  /-- START (R168): CTRL.RUN written 1. -/
  | start
  /-- START_COMPLETED (R169); `e` holds the read errors met while the book was read. -/
  | startCompleted (e : LinkErrs)
  /-- START_REFUSED (R169). -/
  | startRefused (e : LinkErrs)
  /-- STOP (R171): CTRL.RUN written 0. -/
  | stop
  /-- STOP_COMPLETED (R171); `e` holds the write errors met while the held entries are retired. -/
  | stopCompleted (e : LinkErrs)
  /-- STANDBY_REQUEST (R118): CTRL.STANDBY written 1. -/
  | standbyRequest
  /-- STANDBY_RETURN (R170): CTRL.STANDBY written 0. -/
  | standbyReturn
  /-- FREEZE_REQUEST (R174): CTRL.FREEZE written 1. -/
  | freezeRequest
  /-- FREEZE_CLEAR (R174): CTRL.FREEZE written 0. -/
  | freezeClear
  /-- IRQ_ENABLE (R167): CTRL.IRQ_ENABLE written `v`. -/
  | irqEnable (v : Bool)
  /-- DISMISS (R117): CTRL.DISMISS written 1. -/
  | dismiss
  /-- FORCE (R165): CTRL.FORCE written 1. -/
  | force
  /-- NOTICE_CLEAR (R167): a write of `v` to NOTICE. -/
  | noticeClear (v : Word)
  /-- NOTICE_MASK_WRITE (R167). -/
  | noticeMaskWrite (v : Word)
  /-- REGISTER_WRITE (R176): a write of `width` bytes at `off` of the BAR. -/
  | registerWrite (off : Nat) (width : Nat) (v : BitVec 64)
  /-- FRAME_START (R27). -/
  | frameStart (i : ScreenId) (e : LinkErrs)
  /-- REFRESH_COMPLETED (R41). -/
  | refreshCompleted (i : ScreenId)
  /-- FETCH_ERROR (R56). -/
  | fetchError (i : ScreenId) (x : FetchElement)
  /-- STATUS_WRITE_ERROR (R16): the write of a word of the entry at `addr` of chain `c` failed. -/
  | statusWriteError (c : ChainId) (addr : BitVec 64) (w : EntryWord)
  /-- STATUS_TIMER_EXPIRY (R173). -/
  | statusTimerExpiry
  /-- STATUS_UPDATE_END (R173). -/
  | statusUpdateEnd
  /-- PAGE_WRITE_ERROR (R173). -/
  | pageWriteError
  /-- FREEZE_TIMER_EXPIRY (R174). -/
  | freezeTimerExpiry
  /-- MESSAGE_BOUNDARY (R101). -/
  | messageBoundary
  /-- FRESHNESS_TIMER_EXPIRY (R103). -/
  | freshnessTimerExpiry (k : Kind)
  /-- REVERSE_LINE_ACTIVE (R112); `ms` whole milliseconds since the monitor's last event. -/
  | reverseLineActive (ms : Nat)
  /-- REVERSE_LINE_INACTIVE (R113); `ms` as above. -/
  | reverseLineInactive (ms : Nat)
  /-- SETTLE_TIMER_EXPIRY (R112). -/
  | settleTimerExpiry
  /-- LINGER_TIMER_EXPIRY (R117). -/
  | lingerTimerExpiry
  /-- START_LIMIT_EXPIRY (R128). -/
  | startLimitExpiry
  /-- SILENCE_TIMER_EXPIRY (R128). -/
  | silenceTimerExpiry
  /-- CAMERA_FRAME_START_MARKER (R124). -/
  | cameraFrameStartMarker
  /-- CAMERA_LINE_MARKER (R124). -/
  | cameraLineMarker
  /-- CAMERA_PIXEL (R124): one pixel's two bytes, in the port's order (luma, then its half of the pair's chroma). -/
  | cameraPixel (y : Byte) (c : Byte)
  /-- CAMERA_FRAME_END_MARKER (R125). -/
  | cameraFrameEndMarker
  /-- CAMERA_WRITE_ERROR (R124). -/
  | cameraWriteError
  /-- CHIME_TICK (R148). -/
  | chimeTick (e : LinkErrs)
  /-- AUDIO_SAMPLE_EVENT (R159). -/
  | audioSampleEvent
  /-- BLINK_PHASE_CHANGE (R90). -/
  | blinkPhaseChange
  /-- DUCK_TIMER_EXPIRY (R161). -/
  | duckTimerExpiry
  /-- VEHICLE_LINK_BYTE (R98). -/
  | vehicleLinkByte (b : LineByte)
  /-- RECEIVER_IDLE_WAIT_END (R99). -/
  | receiverIdleWaitEnd
  /-- PWM_PERIOD_START (R30). -/
  | pwmPeriodStart (i : ScreenId)
  deriving DecidableEq, Repr

end Sys2Proof
end

