-- ==== Sys2Proof/Config.lean ====
section
/-! DEFINITION. What the manual leaves free. One constant without a body: nothing in Lean can evaluate it. -/

namespace Sys2Proof

/-- DESIGN CHOICE (Log 6), safe: the value a status or report word holds in host memory after the link port has
reported that its write failed. R16 says that the host cannot rely on the word. The argument is the index of the
failure (`State.freeIx`). -/
opaque Config.lostWord : Nat → Word

/-- DESIGN CHOICE (Log 34), safe: the colour, in its low 24 bits, of a pixel of the camera picture in LIVE while no camera
buffer holds SHOWN. R50 gives the content of the buffer holding SHOWN and says nothing where none does. The arguments
are the pixel's column and row. -/
opaque Config.unshownPixel : Nat → Nat → Word

end Sys2Proof
end

