-- ==== Sys2Proof/Machine/State.lean ====
section
/-! DEFINITION. The state of the Mirvada 318: everything the spec gives the machine, as plain data, and the state
after power-on reset. INVENTORY.md, '## State', names the rule of each field. -/

namespace Sys2Proof.Machine

/-! ## Small collections -/

/-- One value for each screen. -/
structure PerScreen (α : Type) where
  centre : α
  left : α
  right : α
  deriving DecidableEq, Repr

/-- One value for each film stream. -/
structure PerStream (α : Type) where
  a : α
  b : α
  deriving DecidableEq, Repr

/-- One value for each vehicle link message kind. -/
structure PerKind (α : Type) where
  steer : α
  speed : α
  range : α
  gear : α
  dim : α
  deriving DecidableEq, Repr

/-- One value for each camera buffer. -/
structure PerBuffer (α : Type) where
  b0 : α
  b1 : α
  b2 : α
  deriving DecidableEq, Repr

/-- Host memory: the listed bytes, addresses strictly rising, no listed byte equal to 0, which is what an unlisted
byte reads as (Log 1). -/
abbrev Mem := List Host.Cell

/-! ## Colours and pixel formats (00_scope.md section 0.4; 03) -/

/-- A colour without alpha, 8 bits a channel. -/
structure Rgb where
  r : Nat
  g : Nat
  b : Nat
  deriving DecidableEq, Repr

/-- A colour with straight alpha, 8 bits a channel. -/
structure Argb where
  a : Nat
  r : Nat
  g : Nat
  b : Nat
  deriving DecidableEq, Repr

/-- The pixel formats of pictures and frames (Table 11-4). -/
inductive PixFormat where
  | rgb565
  | xrgb8888
  | argb8888
  deriving DecidableEq, Repr

/-- A point of a guide line, in pixels of the camera picture (08). -/
structure Pt where
  x : Int
  y : Int
  deriving DecidableEq, Repr

/-! ## Registers (10) -/

/-- The run states (Table 10-3). -/
inductive RunState where
  | off
  | starting
  | run
  | standby
  | stopping
  deriving DecidableEq, Repr

/-- The results of a start (R166). -/
inductive StartResult where
  | ok
  | badBookAddress
  | badFormat
  | badSettings
  | memoryError
  deriving DecidableEq, Repr

/-- The register window's own state: BOOKADDR, the level bits of CTRL, NOTICE, NOTICE_MASK and the start fields of
STATE. The action bits of CTRL read 0 and hold nothing (R165). -/
structure Regs where
  bookAddr : BitVec 64
  run : Bool
  standby : Bool
  freeze : Bool
  irqEnable : Bool
  notice : Word
  noticeMask : Word
  startResult : StartResult
  startDetail : Nat
  guideRejected : Bool
  deriving DecidableEq, Repr

/-! ## The settings record, as copied at start (Table 11-2) -/

/-- The settings of one screen (Table 2-1). -/
structure ScreenSettings where
  width : Nat
  height : Nat
  period : Nat
  phase : Nat
  background : Rgb
  deriving DecidableEq, Repr

/-- Parity of the vehicle link (Table 6-1). -/
inductive Parity where
  | none
  | even
  | odd
  deriving DecidableEq, Repr

/-- The vehicle link settings (Table 6-1). -/
structure LinkSettings where
  bitRate : Nat
  parity : Parity
  stopBits : Nat
  fresh : PerKind Nat
  restrictOff : Nat
  restrictOn : Nat
  deriving DecidableEq, Repr

/-- Which inputs decide reverse (R115). -/
inductive ReverseSource where
  | line
  | link
  | either
  deriving DecidableEq, Repr

/-- The reverse settings (Table 7-1). -/
structure ReverseSettings where
  source : ReverseSource
  activeLow : Bool
  glitch : Nat
  settleOn : Nat
  settleOff : Nat
  linger : Nat
  lingerExit : Nat
  deriving DecidableEq, Repr

/-- The camera settings (Table 7-1). -/
structure CameraSettings where
  width : Nat
  height : Nat
  period : Nat
  mirror : Bool
  warm : Bool
  startLimit : Nat
  silence : Nat
  blank : Rgb
  buffers : PerBuffer Nat
  fallback : Nat
  originX : Int
  originY : Int
  deriving DecidableEq, Repr

/-- The guide and parking settings (Table 8-2). -/
structure GuideSettings where
  enable : Bool
  lineWidth : Nat
  deadband : Nat
  dNear : Nat
  dFar : Nat
  colour0 : Rgb
  colour1 : Rgb
  colour2 : Rgb
  caution : Rgb
  stop : Rgb
  deriving DecidableEq, Repr

/-- The wave shapes (Table 9-1). -/
inductive Wave where
  | square
  | triangle
  deriving DecidableEq, Repr

/-- The chime settings (Table 9-2). -/
structure ChimeSettings where
  faultPattern : Nat
  parkLevel : Nat
  parkFreq : Nat
  parkWave : Wave
  parkAttack : Nat
  parkRelease : Nat
  tMin : Nat
  tMax : Nat
  beep : Nat
  duckHold : Nat
  deriving DecidableEq, Repr

/-- The kinds of layer; a code that names none is kept (R23). -/
inductive LayerKind where
  | fill
  | picture
  | film
  | cells
  | camera
  | unknown (code : Nat)
  deriving DecidableEq, Repr

/-- The kind fields of a CELLS layer (Table 5-1) that lie outside the kind word. -/
structure CellFields where
  map : Nat
  sheet : Nat
  palette : Nat
  cols : Nat
  rows : Nat
  scroll : Nat
  col0 : Nat
  row0 : Nat
  col1 : Nat
  row1 : Nat
  deriving DecidableEq, Repr

/-- A layer record (Tables 2-3 and 11-5). Fields of another kind hold what the record's bytes say there. -/
structure Layer where
  kind : LayerKind
  more : Bool
  restricted : Bool
  rank : Nat
  opacity : Nat
  format : Option PixFormat
  stream : Option StreamId
  glyphs : Nat
  focusOn : Bool
  blinkOn : Bool
  x : Int
  y : Int
  w : Nat
  h : Nat
  fill : Argb
  surface : Nat
  stride : Nat
  cells : CellFields
  deriving DecidableEq, Repr

/-- How the takeover cell layer of the settings was judged (R94). -/
inductive CellLayerState where
  | absent
  | inUse
  | rejected
  deriving DecidableEq, Repr

/-- The 318's own copy of the settings record. -/
structure Settings where
  windowBase : Nat
  windowSize : Nat
  screens : PerScreen ScreenSettings
  budget : Nat
  pwm : Nat
  takeoverBrightness : Nat
  brightnessFloor : Nat
  nudgeRate : Nat
  blinkPeriod : Nat
  link : LinkSettings
  reverse : ReverseSettings
  camera : CameraSettings
  guide : GuideSettings
  chime : ChimeSettings
  cellLayer : Option Layer
  cellState : CellLayerState
  deriving DecidableEq, Repr

/-! ## The chain unit (01) -/

/-- The states of a chain (R8). -/
inductive ChainState where
  | empty
  | running
  | faulted
  deriving DecidableEq, Repr

/-- The causes of a fault record (R19). -/
inductive FaultCause where
  | none
  | address
  | alignment
  | loop
  | readError
  | linkRead
  | rootRead
  | writeError
  | kind
  deriving DecidableEq, Repr

/-- What the chain unit keeps of one chain (R8, R19). -/
structure Chain where
  state : ChainState
  cursor : Option Nat
  lastSerial : Word
  cause : FaultCause
  faultAddr : Nat
  faults : Nat
  rootReadErrors : Nat
  statusWriteErrors : Nat
  deriving DecidableEq, Repr

/-- The six chains. -/
structure Chains where
  plans : PerScreen Chain
  films : PerStream Chain
  chime : Chain
  deriving DecidableEq, Repr

/-- The entry states the 318 writes (Table 1-2). -/
inductive EntryState where
  | taken
  | waiting
  | done
  | skipped
  | cancelled
  | dropped
  | rejected
  | fault
  | released
  deriving DecidableEq, Repr

/-- A hold record (section 1.6): an entry consumed and not yet given its final state. `count` and `late` are the
report word's fields, `shed` and `invalid` the plan fields of the status word, `written` the status word last
written (R36 compares with it). -/
structure Hold where
  chain : ChainId
  addr : Nat
  cursor : Bool
  client : Bool
  refs : PerScreen Bool
  used : Bool
  waiting : Bool
  verdict : Option EntryState
  count : Nat
  late : Nat
  shed : BitVec 6
  invalid : BitVec 6
  written : Option Word
  deriving DecidableEq, Repr

/-! ## Screens, governor, pipes (02, 03, 05) -/

/-- The modes of a plan (R28). -/
inductive Mode where
  | normal
  | invert
  | blank
  | dark
  deriving DecidableEq, Repr

/-- The states of a panel link (R29). -/
inductive Panel where
  | idle
  | sending
  deriving DecidableEq, Repr

/-- A valid layer of a taken plan, with its record number counted from the back. -/
structure PlanLayer where
  idx : Nat
  layer : Layer
  deriving DecidableEq, Repr

/-- A taken plan (R23, R24): its valid layers in record order. -/
structure Plan where
  addr : Nat
  mode : Mode
  brightness : Nat
  layers : List PlanLayer
  invalid : BitVec 6
  deriving DecidableEq, Repr

/-- A frame entry's payload (Table 4-3). -/
structure Frame where
  addr : Nat
  restart : Bool
  last : Bool
  format : Option PixFormat
  pts : Word
  stride : Nat
  surface : Nat
  width : Nat
  height : Nat
  deriving DecidableEq, Repr

/-- An admission record (R32). -/
structure Admission where
  load : Nat
  mask : BitVec 6
  overload : Bool
  deriving DecidableEq, Repr

/-- The parking zones (R139). -/
inductive Zone where
  | unknown
  | clear
  | caution
  | stop
  deriving DecidableEq, Repr

/-- The changing part of the guide set record (R143). -/
structure GuideRec where
  angleInUse : Int
  dynamicShown : Bool
  angleUsed : Int
  bracket : Nat
  weight : Nat
  dynLeft : List Pt
  dynRight : List Pt
  zone : Zone
  dist : Option Nat
  markerShown : Bool
  markerDist : Nat
  markerLeft : Pt
  markerRight : Pt
  deriving DecidableEq, Repr

/-- The view status of the camera picture (R128). -/
inductive View where
  | wait
  | live
  | lost
  deriving DecidableEq, Repr

/-- A layer of a composition set (R40): with its shed bit, the frame a FILM layer draws, and the scroll offset
latched for a CELLS layer (R87). -/
structure SetLayer where
  idx : Nat
  layer : Layer
  shed : Bool
  frame : Option Frame
  scroll : Nat
  deriving DecidableEq, Repr

/-- A composition set, fixed at a frame start (R40), with the blink phase latched (R91). -/
structure CompSet where
  mode : Mode
  panel : Panel
  background : Rgb
  layers : List SetLayer
  takeover : Bool
  view : Option View
  shown : Option Nat
  guide : GuideRec
  blinkOn : Bool
  cellScroll : Nat
  deriving DecidableEq, Repr

/-- A refresh in progress (section 3.1). `pos` is the send position, `failed` the elements whose fetch-failed mark is
set, `clamped` the cell layers already counted for R86, `cover` the cover mark, `final` tells that the timing
generator stops when this refresh has been sent (R21). The takeover cell layer counts as layer 6 in `clamped`. -/
structure Refresh where
  set : CompSet
  pos : Nat
  failed : List FetchElement
  clamped : List Nat
  cover : Bool
  final : Bool
  deriving DecidableEq, Repr

/-- A screen controller with its pipe and admission record. `coverKept` is the cover mark while the pipe holds no refresh:
as the last refresh left it (R57); a refresh in progress bears its own. -/
structure Screen where
  genOn : Bool
  nextStart : Nat
  plan : Option Plan
  mode : Mode
  panel : Panel
  duty : Nat
  dutyOut : Nat
  showsTakeover : Bool
  adm : Admission
  overloads : Nat
  fetchErrors : Nat
  glyphClamps : Nat
  refresh : Option Refresh
  coverKept : Bool
  pixelOut : Option Rgb
  deriving DecidableEq, Repr

/-! ## Film pacer (04) -/

/-- The stream states (Table 4-4). -/
inductive StreamState where
  | idle
  | priming
  | playing
  | paused
  | starved
  | ended
  | faulted
  deriving DecidableEq, Repr

/-- The requested states (Table 4-1). -/
inductive Req where
  | stop
  | run
  | pause
  deriving DecidableEq, Repr

/-- What the film pacer keeps of one stream (Table 4-2). `clock` is M and `fine` is k. `pacedAfter` is the model's
own: the time of the pacing refresh that read a new pacing screen (R59, Log 10). -/
structure Stream where
  state : StreamState
  req : Req
  pacing : ScreenId
  interval : Nat
  clock : Word
  fine : Nat
  balance : Int
  nudgeSerial : Word
  shown : Option Frame
  lastPts : Option Word
  late : Nat
  starves : Nat
  recErrors : Nat
  pacedAfter : Option Nat
  deriving DecidableEq, Repr

/-! ## Vehicle link receiver (06) -/

/-- The cause of a damaged message (R98). -/
inductive Damage where
  | parity
  | framing
  deriving DecidableEq, Repr

/-- The receiver's line side: its running state, the receive buffer with its marks, and its link counters. -/
structure Receiver where
  on : Bool
  waitIdle : Bool
  awaitHigh : Bool
  buf : List Byte
  damaged : Option Damage
  long : Bool
  parityErrs : Nat
  framingErrs : Nat
  longs : Nat
  lengths : Nat
  unknowns : Nat
  checks : Nat
  repeats : Nat
  deriving DecidableEq, Repr

/-- Directions of travel (Table 6-3). -/
inductive Direction where
  | forward
  | reverse
  | unknown
  deriving DecidableEq, Repr

/-- Gear codes (Table 6-3). -/
inductive Gear where
  | p
  | r
  | n
  | d
  | unknown
  deriving DecidableEq, Repr

/-- The motion states (R105). -/
inductive Motion where
  | unknown
  | moving
  | still
  deriving DecidableEq, Repr

/-- What the receiver keeps of one kind beside its value (R102, R103, R107). A timer is `none` when stopped and holds
its limit in ms when running (Log 7). -/
structure KindRec where
  alive : Option (BitVec 4)
  fresh : Bool
  timer : Option Nat
  accepted : Nat
  deriving DecidableEq, Repr

/-- The vehicle record (section 6.5). -/
structure Vehicle where
  angle : Int
  speed : Nat
  direction : Direction
  ranges : List Nat
  gear : Gear
  dim : Nat
  dimInUse : Nat
  motion : Motion
  kinds : PerKind KindRec
  deriving DecidableEq, Repr

/-! ## Reverse monitor, takeover controller, camera (07) -/

/-- The monitor's states (R112, R113). -/
inductive MonitorState where
  | released
  | onPending
  | engaged
  | offPending
  deriving DecidableEq, Repr

/-- The reverse monitor (R114). `sinceChange` is the count of ms since the last change of the line. -/
structure Monitor where
  on : Bool
  state : MonitorState
  settle : Option Nat
  sinceChange : Nat
  activeLen : Nat
  inactiveLen : Nat
  glitches : Nat
  shorts : Nat
  dropouts : Nat
  deriving DecidableEq, Repr

/-- The takeover states (Table 7-3). -/
inductive TakeoverState where
  | normal
  | active
  | linger
  deriving DecidableEq, Repr

/-- The takeover controller (section 7.4), with the link decision and the reverse decision (R115). -/
structure Takeover where
  state : TakeoverState
  view : Option View
  linkDecision : Bool
  reverse : Bool
  pendingStandby : Bool
  linger : Option Nat
  startLimit : Option Nat
  silence : Option Nat
  takeovers : Nat
  losts : Nat
  deriving DecidableEq, Repr

/-- Roles of a camera buffer (Table 7-4). -/
inductive Role where
  | free
  | capturing
  | ready
  | shown
  deriving DecidableEq, Repr

/-- States of the capture unit (R124). -/
inductive CaptureState where
  | idle
  | seeking
  | receiving
  deriving DecidableEq, Repr

/-- The errors of a camera frame (R124). -/
inductive CameraError where
  | line
  | count
  | truncated
  | write
  deriving DecidableEq, Repr

/-- The camera capture unit. `lines` counts the line markers of the frame in progress, `pixels` the pixels of its
current line, `inLine` tells that a line has begun, `writeStopped` that a WRITE error ended the frame's writes. -/
structure Camera where
  enabled : Bool
  unit : CaptureState
  lines : Nat
  inLine : Bool
  pixels : Nat
  error : Option CameraError
  writeStopped : Bool
  roles : PerBuffer Role
  silent : Bool
  correct : Nat
  dropped : Nat
  lineErrs : Nat
  countErrs : Nat
  truncErrs : Nat
  writeErrs : Nat
  deriving DecidableEq, Repr

/-! ## Guide engine (08) -/

/-- The guide table's internal copy (Table 8-1). -/
structure GuideTable where
  angles : List Int
  dists : List Nat
  colours : List Nat
  dynLeft : List (List Pt)
  dynRight : List (List Pt)
  statLeft : List Pt
  statRight : List Pt
  deriving DecidableEq, Repr

/-- The guide states (R133). -/
inductive GuideState where
  | inUse
  | disabled
  | tableRejected
  deriving DecidableEq, Repr

/-- The rejection reasons (R132). -/
inductive GuideReason where
  | none
  | nodeCount
  | markCount
  | angleRange
  | angleOrder
  | distanceRange
  | distanceOrder
  | colour
  | pointRange
  deriving DecidableEq, Repr

/-- The guide engine. -/
structure Guide where
  state : GuideState
  reason : GuideReason
  table : Option GuideTable
  set : GuideRec
  deriving DecidableEq, Repr

/-! ## Chime engine (09) -/

/-- A note of a pattern (Table 9-1). -/
structure PatternNote where
  freq : Nat
  duty : Nat
  wave : Wave
  level : Nat
  attack : Nat
  hold : Nat
  release : Nat
  gap : Nat
  deriving DecidableEq, Repr

/-- The notes of a usable pattern, in order. -/
abbrev Pattern := List PatternNote

/-- Classes of a PLAY (Table 9-3). -/
inductive ChimeClass where
  | urgent
  | notice
  | click
  deriving DecidableEq, Repr

/-- A queued PLAY entry. `playing` tells that its voice is playing it, `plays` counts its plays completed. -/
structure QEntry where
  addr : Nat
  cls : ChimeClass
  pattern : Nat
  repeats : Nat
  resumable : Bool
  duck : Bool
  tag : Nat
  plays : Nat
  playing : Bool
  deriving DecidableEq, Repr

/-- Stages of a note's envelope (R159): attack from an envelope value, hold, the endless hold of the STOP tone,
release from an envelope value, and silence (a gap or a rest). Lengths are in sample events. -/
inductive Seg where
  | attack (e0 : Nat) (len : Nat)
  | hold (len : Nat)
  | sustain
  | release (e0 : Nat) (len : Nat)
  | silence (len : Nat)
  deriving DecidableEq, Repr

/-- What a note sounds: frequency, wave, duty and level. -/
structure Tone where
  freq : Nat
  wave : Wave
  duty : Nat
  level : Nat
  deriving DecidableEq, Repr

/-- A note in progress: its phase, its remaining stages with the samples already given of the first one, and the
envelope of the last sample. -/
structure Note where
  tone : Tone
  phase : Word
  segs : List Seg
  pos : Nat
  env : Nat
  deriving DecidableEq, Repr

/-- A handover release in progress (R154): `m` of its 240 samples given. `cadence` tells that the note was the
cadence's, `duck` that it was a UI entry's with the DUCK flag. -/
structure Fade where
  tone : Tone
  phase : Word
  e0 : Nat
  m : Nat
  cadence : Bool
  duck : Bool
  deriving DecidableEq, Repr

/-- What a voice plays: an entry by its address, or the sensor-fault chime. -/
inductive PlaySource where
  | entry (addr : Nat)
  | fault
  deriving DecidableEq, Repr

/-- A play: its source, its pattern's notes and the index of the current note. -/
structure Play where
  source : PlaySource
  pattern : Pattern
  idx : Nat
  deriving DecidableEq, Repr

/-- A voice. When `play` is none, a note of the alert voice is the cadence's. -/
structure Voice where
  play : Option Play
  note : Option Note
  fade : Option Fade
  deriving DecidableEq, Repr

/-- States of the cadence generator (section 9.5). -/
inductive CadState where
  | off
  | caution
  | stop
  deriving DecidableEq, Repr

/-- The chime engine. -/
structure Chime where
  library : List (Option Pattern)
  alertQ : List QEntry
  uiQ : List QEntry
  alert : Voice
  ui : Voice
  cad : CadState
  period : Nat
  ticksLeft : Nat
  pending : Bool
  zone : Zone
  dist : Option Nat
  takeover : TakeoverState
  tickOn : Bool
  duck : Bool
  duckTimer : Option Nat
  rejected : Nat
  dropped : Nat
  cancelled : Nat
  faultChimes : Nat
  clips : Nat
  clipped : Bool
  audioOut : Int
  deriving DecidableEq, Repr

/-! ## Status writer (10) -/

/-- A status page update under way (R173): the count it wrote, the copied page, and how many bytes of the page have
been written. -/
structure PageUpdate where
  count : Word
  page : List Byte
  pos : Nat
  deriving DecidableEq, Repr

/-- The status writer (R173, R174). -/
structure StatusWriter where
  timerOn : Bool
  frozen : Bool
  freezeOn : Bool
  expired : Bool
  freezeWaiting : Bool
  count : Word
  pageErrors : Nat
  update : Option PageUpdate
  deriving DecidableEq, Repr

/-! ## The whole machine -/

/-- The state of the machine. `pending` is the queue of waiting commands, first in, first out; `freeIx` counts the
free values used (Log 6). -/
structure State where
  pending : List Instr
  regs : Regs
  runState : RunState
  book : Nat
  settings : Settings
  bookCopy : Mem
  mem : Mem
  chains : Chains
  holds : List Hold
  screens : PerScreen Screen
  capLoad : Nat
  blinkOn : Bool
  blinkRunning : Bool
  streams : PerStream Stream
  link : Receiver
  vehicle : Vehicle
  linePin : Bool
  monitor : Monitor
  takeover : Takeover
  camera : Camera
  guide : Guide
  chime : Chime
  status : StatusWriter
  freeIx : Nat
  deriving DecidableEq, Repr

/-- Faults. Nobody raises one: the spec answers every malfunction by state (a faulted chain, a start result, a
counter, a notice), and every address a command uses is a 64-bit address judged before use. -/
inductive Fault where
  /-- An access outside the 64-bit address space. No command raises it (Log 25). Safe. -/
  | outsideAddressSpace
  deriving DecidableEq, Repr

/-- Refusals. -/
inductive Refusal where
  /-- `exec` answers it for a command without a meaning: no command is left without one. Safe. -/
  | notModelled (mnemonic : String)
  deriving DecidableEq, Repr

/-! ## Reset values -/

/-- The registers after power-on reset and SOFT_RESET (Table 10-1). -/
def Regs.reset : Regs :=
  { bookAddr := 0, run := false, standby := false, freeze := false, irqEnable := false, notice := 0,
    noticeMask := 0, startResult := .ok, startDetail := 0, guideRejected := false }

/-- DESIGN CHOICE (Log 9): the settings copy is discarded by a reset; the discarded copy reads all zero. -/
def ScreenSettings.reset : ScreenSettings :=
  { width := 0, height := 0, period := 0, phase := 0, background := ⟨0, 0, 0⟩ }

/-- DESIGN CHOICE (Log 9), as `ScreenSettings.reset`. -/
def Settings.reset : Settings :=
  { windowBase := 0, windowSize := 0,
    screens := ⟨ScreenSettings.reset, ScreenSettings.reset, ScreenSettings.reset⟩,
    budget := 0, pwm := 0, takeoverBrightness := 0, brightnessFloor := 0, nudgeRate := 0, blinkPeriod := 0,
    link := { bitRate := 0, parity := .none, stopBits := 0, fresh := ⟨0, 0, 0, 0, 0⟩, restrictOff := 0,
              restrictOn := 0 },
    reverse := { source := .line, activeLow := false, glitch := 0, settleOn := 0, settleOff := 0, linger := 0,
                 lingerExit := 0 },
    camera := { width := 0, height := 0, period := 0, mirror := false, warm := false, startLimit := 0, silence := 0,
                blank := ⟨0, 0, 0⟩, buffers := ⟨0, 0, 0⟩, fallback := 0, originX := 0, originY := 0 },
    guide := { enable := false, lineWidth := 0, deadband := 0, dNear := 0, dFar := 0, colour0 := ⟨0, 0, 0⟩,
               colour1 := ⟨0, 0, 0⟩, colour2 := ⟨0, 0, 0⟩, caution := ⟨0, 0, 0⟩, stop := ⟨0, 0, 0⟩ },
    chime := { faultPattern := 0, parkLevel := 0, parkFreq := 0, parkWave := .square, parkAttack := 0,
               parkRelease := 0, tMin := 0, tMax := 0, beep := 0, duckHold := 0 },
    cellLayer := none, cellState := .absent }

/-- A chain after reset (R18). -/
def Chain.reset : Chain :=
  { state := .empty, cursor := none, lastSerial := 0, cause := .none, faultAddr := 0, faults := 0,
    rootReadErrors := 0, statusWriteErrors := 0 }

/-- The admission record's start value (R32). -/
def Admission.reset : Admission := { load := 0, mask := 0, overload := false }

/-- A screen controller after reset (R38, R57, R96). -/
def Screen.reset : Screen :=
  { genOn := false, nextStart := 0, plan := none, mode := .dark, panel := .idle, duty := 0, dutyOut := 0,
    showsTakeover := false, adm := Admission.reset, overloads := 0, fetchErrors := 0, glyphClamps := 0,
    refresh := none, coverKept := false, pixelOut := none }

/-- A film stream after reset (R79); `i` is its power-on pacing screen. -/
def Stream.reset (i : ScreenId) : Stream :=
  { state := .idle, req := .stop, pacing := i, interval := 3000, clock := 0, fine := 0, balance := 0,
    nudgeSerial := 0, shown := none, lastPts := none, late := 0, starves := 0, recErrors := 0, pacedAfter := none }

/-- The receiver after reset (R109). -/
def Receiver.reset : Receiver :=
  { on := false, waitIdle := false, awaitHigh := false, buf := [], damaged := none, long := false, parityErrs := 0,
    framingErrs := 0, longs := 0, lengths := 0, unknowns := 0, checks := 0, repeats := 0 }

/-- A kind's entry after reset (R109). -/
def KindRec.reset : KindRec := { alive := none, fresh := false, timer := none, accepted := 0 }

/-- The vehicle record after reset (R109). -/
def Vehicle.reset : Vehicle :=
  { angle := 0, speed := 0, direction := .unknown, ranges := [0, 0, 0, 0], gear := .unknown, dim := 0,
    dimInUse := 255, motion := .unknown,
    kinds := ⟨KindRec.reset, KindRec.reset, KindRec.reset, KindRec.reset, KindRec.reset⟩ }

/-- The reverse monitor after reset (R129). -/
def Monitor.reset : Monitor :=
  { on := false, state := .released, settle := none, sinceChange := 0, activeLen := 0, inactiveLen := 0,
    glitches := 0, shorts := 0, dropouts := 0 }

/-- The takeover controller after reset (R129). -/
def Takeover.reset : Takeover :=
  { state := .normal, view := none, linkDecision := false, reverse := false, pendingStandby := false, linger := none,
    startLimit := none, silence := none, takeovers := 0, losts := 0 }

/-- The capture unit after reset (R129): IDLE, every buffer FREE, silent. -/
def Camera.reset : Camera :=
  { enabled := false, unit := .idle, lines := 0, inLine := false, pixels := 0, error := none, writeStopped := false,
    roles := ⟨.free, .free, .free⟩, silent := true, correct := 0, dropped := 0, lineErrs := 0, countErrs := 0,
    truncErrs := 0, writeErrs := 0 }

/-- The guide set record after reset (R144). -/
def GuideRec.reset : GuideRec :=
  { angleInUse := 0, dynamicShown := false, angleUsed := 0, bracket := 0, weight := 0, dynLeft := [], dynRight := [],
    zone := .unknown, dist := none, markerShown := false, markerDist := 0, markerLeft := ⟨0, 0⟩,
    markerRight := ⟨0, 0⟩ }

/-- The guide engine after reset (R144): no table, TABLE_REJECTED with reason NONE. -/
def Guide.reset : Guide := { state := .tableRejected, reason := .none, table := none, set := GuideRec.reset }

/-- An idle voice. -/
def Voice.idle : Voice := { play := none, note := none, fade := none }

/-- The chime engine after reset (R162): every one of the 32 patterns unusable. -/
def Chime.reset : Chime :=
  { library := List.replicate 32 none, alertQ := [], uiQ := [], alert := Voice.idle, ui := Voice.idle, cad := .off,
    period := 0, ticksLeft := 0, pending := false, zone := .unknown, dist := none, takeover := .normal,
    tickOn := false, duck := false, duckTimer := none, rejected := 0, dropped := 0, cancelled := 0, faultChimes := 0,
    clips := 0, clipped := false, audioOut := 0 }

/-- The status writer after reset (R173, R174). -/
def StatusWriter.reset : StatusWriter :=
  { timerOn := false, frozen := false, freezeOn := false, expired := false, freezeWaiting := false, count := 0,
    pageErrors := 0, update := none }

/-- The machine right after power-on reset (R172): OFF, every register and block at its reset value, no command
waiting, nothing listed in host memory (Log 1). -/
def State.reset : State :=
  { pending := [], regs := Regs.reset, runState := .off, book := 0, settings := Settings.reset, bookCopy := [], mem := [],
    chains := { plans := ⟨Chain.reset, Chain.reset, Chain.reset⟩, films := ⟨Chain.reset, Chain.reset⟩,
                chime := Chain.reset },
    holds := [], screens := ⟨Screen.reset, Screen.reset, Screen.reset⟩, capLoad := 0, blinkOn := true,
    blinkRunning := false, streams := ⟨Stream.reset .left, Stream.reset .right⟩, link := Receiver.reset,
    vehicle := Vehicle.reset, linePin := false, monitor := Monitor.reset, takeover := Takeover.reset,
    camera := Camera.reset, guide := Guide.reset, chime := Chime.reset, status := StatusWriter.reset, freeIx := 0 }

end Sys2Proof.Machine
end

