-- ==== Sys2Proof/Machine/Ops.lean ====
section
/-! DEFINITION. The named operations over the state: collections, host memory, notices, chains and hold records. -/

namespace Sys2Proof.Machine

/-! ## Collections -/

/-- The value of screen `i`. -/
def PerScreen.get {α : Type} (p : PerScreen α) : ScreenId → α
  | .centre => p.centre
  | .left => p.left
  | .right => p.right

/-- `p` with screen `i`'s value replaced. -/
def PerScreen.set {α : Type} (p : PerScreen α) (i : ScreenId) (v : α) : PerScreen α :=
  match i with
  | .centre => { p with centre := v }
  | .left => { p with left := v }
  | .right => { p with right := v }

/-- `f` on every screen's value. -/
def PerScreen.map {α β : Type} (p : PerScreen α) (f : α → β) : PerScreen β := ⟨f p.centre, f p.left, f p.right⟩

/-- The value of stream `x`. -/
def PerStream.get {α : Type} (p : PerStream α) : StreamId → α
  | .a => p.a
  | .b => p.b

/-- `p` with stream `x`'s value replaced. -/
def PerStream.set {α : Type} (p : PerStream α) (x : StreamId) (v : α) : PerStream α :=
  match x with
  | .a => { p with a := v }
  | .b => { p with b := v }

/-- The value of kind `k`. -/
def PerKind.get {α : Type} (p : PerKind α) : Kind → α
  | .steer => p.steer
  | .speed => p.speed
  | .range => p.range
  | .gear => p.gear
  | .dim => p.dim

/-- `p` with kind `k`'s value replaced. -/
def PerKind.set {α : Type} (p : PerKind α) (k : Kind) (v : α) : PerKind α :=
  match k with
  | .steer => { p with steer := v }
  | .speed => { p with speed := v }
  | .range => { p with range := v }
  | .gear => { p with gear := v }
  | .dim => { p with dim := v }

/-- `f` on every kind's value. -/
def PerKind.map {α β : Type} (p : PerKind α) (f : α → β) : PerKind β :=
  ⟨f p.steer, f p.speed, f p.range, f p.gear, f p.dim⟩

/-- The value of buffer `n`, counted from 0; buffer 2 for any higher number. -/
def PerBuffer.get {α : Type} (p : PerBuffer α) : Nat → α
  | 0 => p.b0
  | 1 => p.b1
  | _ => p.b2

/-- `p` with buffer `n`'s value replaced. -/
def PerBuffer.set {α : Type} (p : PerBuffer α) (n : Nat) (v : α) : PerBuffer α :=
  match n with
  | 0 => { p with b0 := v }
  | 1 => { p with b1 := v }
  | _ => { p with b2 := v }

/-- `s` with screen `i` changed by `f`. -/
def State.modScreen (s : State) (i : ScreenId) (f : Screen → Screen) : State :=
  { s with screens := s.screens.set i (f (s.screens.get i)) }

/-- `s` with stream `x` changed by `f`. -/
def State.modStream (s : State) (x : StreamId) (f : Stream → Stream) : State :=
  { s with streams := s.streams.set x (f (s.streams.get x)) }

/-- The timing settings of screen `i`. -/
def State.screenSettings (s : State) (i : ScreenId) : ScreenSettings := s.settings.screens.get i

/-! ## Host memory -/

/-- The byte at `a`: 0 where nothing is listed (Log 1). -/
def Mem.get : Mem → Nat → Byte
  | [], _ => 0
  | (k, v) :: t, a => if k = a then v else Mem.get t a

/-- Put the pair `(a, b)` at its place by address. -/
def Mem.insert : Mem → Nat → Byte → Mem
  | [], a, b => [(a, b)]
  | (k, v) :: t, a, b => if a < k then (a, b) :: (k, v) :: t else (k, v) :: Mem.insert t a b

/-- The list without the byte at `a`. -/
def Mem.erase (m : Mem) (a : Nat) : Mem := m.filter (fun c => c.1 != a)

/-- Write one byte. A byte that would hold what an unlisted byte reads as is not listed; an address of 2^64 or more
does not exist and takes nothing (Log 25). -/
def Mem.set (m : Mem) (a : Nat) (b : Byte) : Mem :=
  if 2 ^ 64 ≤ a then m else if b = 0 then Mem.erase m a else Mem.insert (Mem.erase m a) a b

/-- The canonical form: addresses strictly rising and below 2^64, no listed byte 0. -/
def Mem.wf : Mem → Bool
  | [] => true
  | (k, v) :: t => decide (k < 2 ^ 64) && (v != 0) && t.all (fun c => decide (k < c.1)) && Mem.wf t

/-- Read `n` bytes at `a`, little-endian (00_scope.md, section 0.4, Byte order). -/
def Mem.readLE (m : Mem) (a : Nat) : Nat → Nat
  | 0 => 0
  | n + 1 => (Mem.get m a).toNat + 256 * Mem.readLE m (a + 1) n

/-- Write the low `n` bytes of `v` at `a`, little-endian. -/
def Mem.writeLE (m : Mem) (a : Nat) : Nat → Nat → Mem
  | 0, _ => m
  | n + 1, v => Mem.set (Mem.writeLE m (a + 1) n (v / 256)) a (BitVec.ofNat 8 v)

/-- An access to the `n` bytes at `a` touches one of the listed addresses. -/
def touches (l : List Nat) (a n : Nat) : Bool := l.any (fun x => decide (a ≤ x) && decide (x < a + n))

/-- The range of `n` bytes at `a` lies inside the memory window: its first and last bytes both do
(00_scope.md, section 0.4, Addresses). -/
def Settings.inWindow (st : Settings) (a n : Nat) : Bool :=
  decide (st.windowBase ≤ a) && decide (a + n ≤ st.windowBase + st.windowSize)

/-! ## Notices (Table 10-2) -/

/-- The notices, in the order of their bits (Table 11-10). -/
inductive Notice where
  | plans
  | frames
  | chimes
  | stream
  | takeover
  | camera
  | vehicle
  | chainFault
  | overload
  | guideOff
  | wake
  | freezeExpired
  | forced
  deriving DecidableEq, Repr

/-- The bit of a notice in NOTICE and NOTICE_MASK. -/
def Notice.bit : Notice → Nat
  | .plans => 0
  | .frames => 1
  | .chimes => 2
  | .stream => 3
  | .takeover => 4
  | .camera => 5
  | .vehicle => 6
  | .chainFault => 7
  | .overload => 8
  | .guideOff => 9
  | .wake => 10
  | .freezeExpired => 11
  | .forced => 12

/-- A raise sets its flag in NOTICE; a flag already set stays set (R167). -/
def State.raise (s : State) (n : Notice) : State :=
  { s with regs := { s.regs with notice := s.regs.notice ||| BitVec.twoPow 32 n.bit } }

/-- `s` with notice `n` raised when `c` holds. -/
def State.raiseIf (s : State) (c : Bool) (n : Notice) : State := if c then s.raise n else s

/-! ## Chains (01) -/

/-- The record of chain `c`. -/
def State.chain (s : State) : ChainId → Chain
  | .plan i => s.chains.plans.get i
  | .film x => s.chains.films.get x
  | .chime => s.chains.chime

/-- `s` with the record of chain `c` replaced. -/
def State.setChain (s : State) (c : ChainId) (v : Chain) : State :=
  match c with
  | .plan i => { s with chains := { s.chains with plans := s.chains.plans.set i v } }
  | .film x => { s with chains := { s.chains with films := s.chains.films.set x v } }
  | .chime => { s with chains := { s.chains with chime := v } }

/-- The offset of a chain's root record in the book (Table 11-3). -/
def rootOffset : ChainId → Nat
  | .plan .centre => 0x400
  | .plan .left => 0x410
  | .plan .right => 0x420
  | .chime => 0x430
  | .film .a => 0x440
  | .film .b => 0x460

/-- The address of a chain's root record. -/
def State.rootAddr (s : State) (c : ChainId) : Nat := s.book + rootOffset c

/-- The notice of a chain's family (R14). -/
def family : ChainId → Notice
  | .plan _ => .plans
  | .film _ => .frames
  | .chime => .chimes

/-- The kind tag a chain accepts (Tables 1-3 and 11-4). -/
def kindTag : ChainId → Nat
  | .plan _ => 1
  | .film _ => 2
  | .chime => 3

/-- The chain goes FAULTED with a cause and an address; CHAIN_FAULT and the fault counter mark each entry into
FAULTED (R10 to R12, R16, R17, R19). -/
def State.faultChain (s : State) (c : ChainId) (cause : FaultCause) (a : Nat) : State :=
  let ch := s.chain c
  if ch.state = .faulted then s.setChain c { ch with cause := cause, faultAddr := a }
  else (s.setChain c { ch with state := .faulted, cause := cause, faultAddr := a, faults := bump ch.faults }).raise
    .chainFault

/-- A read error on a chain's root: its cause and address are recorded and counted, CHAIN_FAULT is raised, and the
chain's state stays (R11, R58). -/
def State.rootReadError (s : State) (c : ChainId) : State :=
  let ch := s.chain c
  (s.setChain c { ch with cause := .rootRead, faultAddr := s.rootAddr c,
                          rootReadErrors := bump ch.rootReadErrors }).raise .chainFault

/-- A failed write of a status or report word: counted (R19), and the chain goes FAULTED (R16). -/
def State.statusWriteFailed (s : State) (c : ChainId) (a : Nat) : State :=
  let s := s.setChain c { s.chain c with statusWriteErrors := bump (s.chain c).statusWriteErrors }
  s.faultChain c .writeError a

/-! ## Entry words -/

/-- The values of the entry states (Table 1-2). -/
def EntryState.code : EntryState → Nat
  | .taken => 1
  | .waiting => 2
  | .done => 8
  | .skipped => 9
  | .cancelled => 10
  | .dropped => 11
  | .rejected => 12
  | .fault => 13
  | .released => 14

/-- A state is final when its value is 8 or more (R3). -/
def EntryState.isFinal (e : EntryState) : Bool := decide (8 ≤ e.code)

/-- The status word (Table 11-4): state in bits 3:0, cursor mark in bit 7, shed mask in bits 13:8, invalid mask in
bits 21:16, every other bit 0 (R176). -/
def statusWord (e : EntryState) (mark : Bool) (shed invalid : BitVec 6) : Word :=
  BitVec.ofNat 32 (e.code + (if mark then 128 else 0) + shed.toNat * 256 + invalid.toNat * 65536)

/-- The report word (Table 11-4): the count in bits 15:0, a frame's first-show lateness in bits 31:16. -/
def reportWord (count late : Nat) : Word := BitVec.ofNat 32 (count + late * 65536)

/-! ## Hold records (section 1.6) -/

/-- A hold record without any hold, for an entry just consumed. -/
def Hold.fresh (c : ChainId) (a : Nat) : Hold :=
  { chain := c, addr := a, cursor := false, client := false, refs := ⟨false, false, false⟩, used := false,
    waiting := false, verdict := none, count := 0, late := 0, shed := 0, invalid := 0, written := none }

/-- No hold remains on the entry. -/
def Hold.isFree (h : Hold) : Bool := !h.cursor && !h.client && !h.refs.centre && !h.refs.left && !h.refs.right

/-- The final state of an entry (R14): its recorded verdict, else DONE when it was used, else RELEASED. -/
def Hold.finalState (h : Hold) : EntryState :=
  match h.verdict with
  | some v => v
  | none => if h.used then .done else .released

/-- The visible state while held: WAITING for a chime entry still queued, else TAKEN (R14, R149). -/
def Hold.heldState (h : Hold) : EntryState := if h.client && h.waiting then .waiting else .taken

/-- The status word of a held entry. -/
def Hold.heldWord (h : Hold) : Word := statusWord h.heldState h.cursor h.shed h.invalid

/-- The status word of the final write: the mark is clear (R4). -/
def Hold.finalWord (h : Hold) : Word := statusWord h.finalState false h.shed h.invalid

/-- Whether a record is that of the entry at `a` of chain `c`. -/
def Hold.isFor (h : Hold) (c : ChainId) (a : Nat) : Bool := decide (h.chain = c) && decide (h.addr = a)

/-- The hold record of an entry, if the chain unit still holds it. -/
def State.hold? (s : State) (c : ChainId) (a : Nat) : Option Hold := s.holds.find? (fun h => h.isFor c a)

/-- Keep a hold record: in place of the entry's earlier record, else as a new one. -/
def State.putHold (s : State) (h : Hold) : State :=
  { s with holds :=
      if s.holds.any (fun x => x.isFor h.chain h.addr) then
        s.holds.map (fun x => if x.isFor h.chain h.addr then h else x)
      else s.holds ++ [h] }

/-- Discard the hold record of an entry. -/
def State.dropHold (s : State) (c : ChainId) (a : Nat) : State :=
  { s with holds := s.holds.filter (fun h => !h.isFor c a) }

/-- `s` with the hold record of an entry changed by `f`, if there is one. -/
def State.modHold (s : State) (c : ChainId) (a : Nat) (f : Hold → Hold) : State :=
  match s.hold? c a with
  | some h => s.putHold (f h)
  | none => s

/-- The final write of an entry: its report word first, then its status word; the family's notice (R14, R2). -/
def State.writeFinal (s : State) (h : Hold) : State :=
  { s with mem := Mem.writeLE (Mem.writeLE s.mem (h.addr + 4) 4 (reportWord h.count h.late).toNat) h.addr 4
                    h.finalWord.toNat }.raise (family h.chain)

/-- Retirement: the final write, and the hold record discarded (R14). -/
def State.retire (s : State) (h : Hold) : State := (s.writeFinal h).dropHold h.chain h.addr

/-- A status write of an entry still held, made when its visible word differs from the one last written. -/
def State.syncHold (s : State) (h : Hold) : State :=
  if h.written = some h.heldWord then s
  else { s with mem := Mem.writeLE s.mem h.addr 4 h.heldWord.toNat }.putHold { h with written := some h.heldWord }

/-- Bring an entry's words to what its holds say: retire it when no hold remains, else write its status word if it
changed (R14). -/
def State.settle (s : State) (c : ChainId) (a : Nat) : State :=
  match s.hold? c a with
  | some h => if h.isFree then s.retire h else s.syncHold h
  | none => s

/-- The client's hold on an entry ends (Table 1-4). -/
def State.endClient (s : State) (c : ChainId) (a : Nat) : State :=
  (s.modHold c a (fun h => { h with client := false, waiting := false })).settle c a

/-- The cursor leaves its entry, if the chain has one (R4, R7): the hold ends and the mark is cleared. -/
def State.endCursor (s : State) (c : ChainId) : State :=
  match (s.chain c).cursor with
  | some a => (s.modHold c a (fun h => { h with cursor := false })).settle c a
  | none => s

/-- The chain is abandoned (R7): the cursor hold ends and the chain is EMPTY; entries held otherwise keep their
records. -/
def State.abandon (s : State) (c : ChainId) : State :=
  let s := s.endCursor c
  s.setChain c { s.chain c with state := .empty, cursor := none }

/-- The last record of a list bears the cursor. -/
def markLast : List Hold → List Hold
  | [] => []
  | [h] => [{ h with cursor := true }]
  | h :: t => h :: markLast t

/-- The cursor moves to the last of the consumed entries `as`, whose hold records are kept already, the last one with
its cursor hold (R4, R9): the old cursor's status is written first, then the entries' in chain order: those without a
hold get their final state, the last is written with the mark. A chain that is not FAULTED is RUNNING from then on
(R8). -/
def State.moveCursor (s : State) (c : ChainId) (as : List Nat) : State :=
  match as.getLast? with
  | none => s
  | some l =>
    let s := s.endCursor c
    let s := as.foldl (fun s a => s.settle c a) s
    let ch := s.chain c
    s.setChain c { ch with cursor := some l, state := if ch.state = .faulted then .faulted else .running }

/-- The client has consumed the entries whose new hold records are `hs`, in chain order (R9). The record of an entry met
twice in one walk is the later one (Log 13). -/
def State.consume (s : State) (c : ChainId) (hs : List Hold) : State :=
  ((markLast hs).foldl (fun s h => s.putHold h) s).moveCursor c (hs.map (·.addr))

end Sys2Proof.Machine
end

