-- ==== Sys2Proof/Machine/Operands.lean ====
section
/-! DEFINITION. How the records of host memory are read (Chapter 11): colours, layer records, entries, the settings
record, the chime library and the guide table. Bits and bytes the layouts do not assign are ignored (R175). -/

namespace Sys2Proof.Machine

/-! ## Numbers and codes -/

/-- A field of `bits` bits read as two's complement. -/
def toSigned (bits v : Nat) : Int := if v < 2 ^ (bits - 1) then (v : Int) else (v : Int) - 2 ^ bits

/-- The quotient rounded up. -/
def divUp (a b : Nat) : Nat := (a + b - 1) / b

/-- Bit `k` of `v`. -/
def bitOf (v k : Nat) : Bool := v / 2 ^ k % 2 = 1

/-- The value clamped to `[lo, hi]` (section 0.4). -/
def clampInt (lo hi v : Int) : Int := if v < lo then lo else if hi < v then hi else v

/-- The signed difference `a - b` of two 32-bit quantities (section 0.4). -/
def sdiff (a b : Word) : Int := (a - b).toInt

/-- An RGB colour field; bits 31:24 are ignored (Chapter 11). -/
def rgbOf (w : Nat) : Rgb := ⟨w / 65536 % 256, w / 256 % 256, w % 256⟩

/-- An ARGB colour field. -/
def argbOf (w : Nat) : Argb := ⟨w / 16777216 % 256, w / 65536 % 256, w / 256 % 256, w % 256⟩

/-- The pixel format codes (Table 11-4). -/
def formatOf : Nat → Option PixFormat
  | 0 => some .rgb565
  | 1 => some .xrgb8888
  | 2 => some .argb8888
  | _ => none

/-- The stream codes (Table 11-5). -/
def streamOf : Nat → Option StreamId
  | 0 => some .a
  | 1 => some .b
  | _ => none

/-- The screen numbers (section 0.4). -/
def screenOf : Nat → Option ScreenId
  | 0 => some .centre
  | 1 => some .left
  | 2 => some .right
  | _ => none

/-- The mode codes (Table 11-4). -/
def modeOf : Nat → Option Mode
  | 0 => some .normal
  | 1 => some .invert
  | 2 => some .blank
  | 3 => some .dark
  | _ => none

/-- The requested-state codes (Table 11-3). -/
def reqOf : Nat → Option Req
  | 0 => some .stop
  | 1 => some .run
  | 2 => some .pause
  | _ => none

/-- The chime class codes (Table 11-4). -/
def classOf : Nat → Option ChimeClass
  | 0 => some .urgent
  | 1 => some .notice
  | 2 => some .click
  | _ => none

/-- The wave codes (Table 11-3). -/
def waveOf : Nat → Option Wave
  | 0 => some .square
  | 1 => some .triangle
  | _ => none

/-- The layer kind codes (Table 11-5). -/
def layerKindOf : Nat → LayerKind
  | 0 => .fill
  | 1 => .picture
  | 2 => .film
  | 3 => .cells
  | 4 => .camera
  | n => .unknown n

/-- Bytes per pixel of a format (Table 3-1). -/
def PixFormat.bytes : PixFormat → Nat
  | .rgb565 => 2
  | .xrgb8888 => 4
  | .argb8888 => 4

/-- A link word: bit 0 set ends the chain, else it is the next entry's address (R5). -/
def linkOf (v : Nat) : Option Nat := if v % 2 = 1 then none else some v

/-! ## Layer records (Table 11-5) -/

/-- The layer record at `a`. -/
def readLayer (m : Mem) (a : Nat) : Layer :=
  let k := Mem.readLE m a 1
  let kw := Mem.readLE m (a + 2) 2
  { kind := layerKindOf (k % 8), more := bitOf k 3, restricted := bitOf k 4, rank := k / 32,
    opacity := Mem.readLE m (a + 1) 1, format := formatOf (kw % 256), stream := streamOf (kw % 256),
    glyphs := kw % 2048, focusOn := bitOf kw 14, blinkOn := bitOf kw 15,
    x := toSigned 16 (Mem.readLE m (a + 4) 2), y := toSigned 16 (Mem.readLE m (a + 6) 2),
    w := Mem.readLE m (a + 8) 2, h := Mem.readLE m (a + 10) 2, fill := argbOf (Mem.readLE m (a + 12) 4),
    surface := Mem.readLE m (a + 16) 8, stride := Mem.readLE m (a + 24) 4,
    cells :=
      { map := Mem.readLE m (a + 16) 8, sheet := Mem.readLE m (a + 24) 8, palette := Mem.readLE m (a + 32) 8,
        cols := Mem.readLE m (a + 40) 1, rows := Mem.readLE m (a + 41) 1, scroll := Mem.readLE m (a + 42) 2,
        col0 := Mem.readLE m (a + 44) 1, row0 := Mem.readLE m (a + 45) 1, col1 := Mem.readLE m (a + 46) 1,
        row1 := Mem.readLE m (a + 47) 1 } }

/-! ## Entries (Table 11-4) -/

/-- A plan payload as read: the mode (none when its code names none), the brightness, the layer records read, and
whether the sixth record's more flag was set (R22). -/
structure PlanBody where
  mode : Option Mode
  brightness : Nat
  layers : List Layer
  tooLong : Bool
  deriving DecidableEq, Repr

/-- A chime payload as read (Table 9-3). -/
structure ChimeBody where
  request : Nat
  pattern : Nat
  cls : Option ChimeClass
  resumable : Bool
  duck : Bool
  repeats : Nat
  tag : Nat
  deriving DecidableEq, Repr

/-- The frame entry at `a`. -/
def readFrame (m : Mem) (a : Nat) : Frame :=
  let fl := Mem.readLE m (a + 20) 1
  { addr := a, restart := bitOf fl 0, last := bitOf fl 1, format := formatOf (Mem.readLE m (a + 21) 1),
    pts := BitVec.ofNat 32 (Mem.readLE m (a + 24) 4), stride := Mem.readLE m (a + 28) 4,
    surface := Mem.readLE m (a + 32) 8, width := Mem.readLE m (a + 40) 2, height := Mem.readLE m (a + 42) 2 }

/-- The chime entry at `a`. -/
def readChime (m : Mem) (a : Nat) : ChimeBody :=
  let fl := Mem.readLE m (a + 23) 1
  { request := Mem.readLE m (a + 20) 1, pattern := Mem.readLE m (a + 21) 1,
    cls := classOf (Mem.readLE m (a + 22) 1), resumable := bitOf fl 0, duck := bitOf fl 1,
    repeats := Mem.readLE m (a + 24) 1 % 16, tag := Mem.readLE m (a + 26) 2 }

/-! ## Validity of layers (R23, R81, R82) -/

/-- The conditions common to all layers: position and size (R23). -/
def Layer.placed (l : Layer) : Bool :=
  decide (1 ≤ l.w) && decide (l.w ≤ 4096) && decide (1 ≤ l.h) && decide (l.h ≤ 4096) &&
  decide (-4096 ≤ l.x) && decide (l.x ≤ 4095) && decide (-4096 ≤ l.y) && decide (l.y ≤ 4095)

/-- The bytes a picture of `w` by `h` pixels occupies: stride × (h − 1) plus w times the bytes per pixel
(R23, R60). -/
def surfaceBytes (stride w h bpp : Nat) : Nat := stride * (h - 1) + w * bpp

/-- A picture's format, stride and surface are usable (R23, R60). -/
def surfaceOk (st : Settings) (format : Option PixFormat) (surface stride w h : Nat) : Bool :=
  match format with
  | none => false
  | some f => decide (w * f.bytes ≤ stride) && decide (stride % 16 = 0) &&
      st.inWindow surface (surfaceBytes stride w h f.bytes)

/-- The conditions of R81 and R82 on a CELLS layer. -/
def Layer.cellsOk (st : Settings) (l : Layer) : Bool :=
  let c := l.cells
  decide (1 ≤ c.cols) && decide (c.cols ≤ 128) && decide (1 ≤ c.rows) && decide (c.rows ≤ 128) &&
  decide (1 ≤ l.glyphs) && decide (l.glyphs ≤ 1024) &&
  decide (c.map % 16 = 0) && decide (c.sheet % 16 = 0) && decide (c.palette % 16 = 0) &&
  (!l.focusOn || (decide (c.col0 ≤ c.col1) && decide (c.col1 + 1 ≤ c.cols) && decide (c.row0 ≤ c.row1) &&
    decide (c.row1 + 1 ≤ c.rows))) &&
  st.inWindow c.map (c.cols * c.rows * 4) && st.inWindow c.sheet (l.glyphs * 128) && st.inWindow c.palette 1024

/-- A layer of a plan on screen `i` is valid (R23). -/
def Layer.valid (st : Settings) (i : ScreenId) (l : Layer) : Bool :=
  l.placed &&
  match l.kind with
  | .fill => true
  | .picture => surfaceOk st l.format l.surface l.stride l.w l.h
  | .film => l.stream.isSome
  | .cells => l.cellsOk st
  | .camera => decide (i = .centre)
  | .unknown _ => false

/-! ## The settings record (Table 11-2) -/

/-- A field of the settings record: `n` bytes at offset `o`. -/
def settingsField (m : Mem) (book o n : Nat) : Nat := Mem.readLE m (book + 0x40 + o) n

/-- The settings of the screen whose record part begins at offset `o`. -/
def readScreenSettings (m : Mem) (book o : Nat) : ScreenSettings :=
  { width := settingsField m book o 2, height := settingsField m book (o + 2) 2,
    period := settingsField m book (o + 4) 4, phase := settingsField m book (o + 8) 4,
    background := rgbOf (settingsField m book (o + 12) 4) }

/-- The settings record without its judgement of the takeover cell layer. -/
def readSettingsRaw (m : Mem) (book : Nat) : Settings :=
  let f := settingsField m book
  { windowBase := f 0x000 8, windowSize := f 0x008 8,
    screens := ⟨readScreenSettings m book 0x010, readScreenSettings m book 0x020, readScreenSettings m book 0x030⟩,
    budget := f 0x040 4, pwm := f 0x044 4, takeoverBrightness := f 0x048 1, brightnessFloor := f 0x049 1,
    nudgeRate := f 0x04A 1, blinkPeriod := f 0x04C 2,
    link :=
      { bitRate := f 0x050 4,
        parity := match f 0x054 1 with | 1 => .even | 2 => .odd | _ => .none,
        stopBits := f 0x055 1, fresh := ⟨f 0x056 2, f 0x058 2, f 0x05A 2, f 0x05C 2, f 0x05E 2⟩,
        restrictOff := f 0x060 2, restrictOn := f 0x062 2 },
    reverse :=
      { source := match f 0x064 1 with | 1 => .link | 2 => .either | _ => .line,
        activeLow := decide (f 0x065 1 = 1), glitch := f 0x066 2, settleOn := f 0x068 2, settleOff := f 0x06A 2,
        linger := f 0x06C 2, lingerExit := f 0x06E 2 },
    camera :=
      { width := f 0x070 2, height := f 0x072 2, period := f 0x074 2, mirror := decide (f 0x076 1 = 1),
        warm := decide (f 0x077 1 = 1), startLimit := f 0x078 2, silence := f 0x07A 2, blank := rgbOf (f 0x07C 4),
        buffers := ⟨f 0x080 8, f 0x088 8, f 0x090 8⟩, fallback := f 0x098 8, originX := toSigned 16 (f 0x0A0 2),
        originY := toSigned 16 (f 0x0A2 2) },
    guide :=
      { enable := decide (f 0x0A4 1 = 1), lineWidth := f 0x0A5 1, deadband := f 0x0A6 1, dNear := f 0x0A7 1,
        dFar := f 0x0A8 2, colour0 := rgbOf (f 0x0AC 4), colour1 := rgbOf (f 0x0B0 4), colour2 := rgbOf (f 0x0B4 4),
        caution := rgbOf (f 0x0B8 4), stop := rgbOf (f 0x0BC 4) },
    chime :=
      { faultPattern := f 0x0C0 1, parkLevel := f 0x0C1 1, parkFreq := f 0x0C2 2,
        parkWave := match f 0x0C4 1 with | 1 => .triangle | _ => .square,
        parkAttack := f 0x0C5 1, parkRelease := f 0x0C6 1, tMin := f 0x0C8 2, tMax := f 0x0CA 2, beep := f 0x0CC 2,
        duckHold := f 0x0CE 2 },
    cellLayer := none, cellState := .absent }

/-- The takeover cell layer as judged by R94: its kind, the common conditions, and R81 and R82, in the memory window
of the same record. -/
def judgeCellLayer (st : Settings) (m : Mem) (book : Nat) : Settings :=
  if bitOf (settingsField m book 0x0D0 1) 0 then
    let l := readLayer m (book + 0x40 + 0x0E0)
    if decide (l.kind = .cells) && l.placed && l.cellsOk st then { st with cellLayer := some l, cellState := .inUse }
    else { st with cellLayer := none, cellState := .rejected }
  else { st with cellLayer := none, cellState := .absent }

/-- The settings as the 318 keeps them. -/
def readSettings (m : Mem) (book : Nat) : Settings := judgeCellLayer (readSettingsRaw m book) m book

/-- `lo ≤ v ≤ hi`. -/
def inRange (v lo hi : Nat) : Bool := decide (lo ≤ v) && decide (v ≤ hi)

/-- Two ranges of `n` bytes share no byte. -/
def apart (a b n : Nat) : Bool := decide (a + n ≤ b) || decide (b + n ≤ a)

/-- The checks of one screen's settings (R20), with their indices from `i` on. -/
def screenChecks (i : Nat) (c : ScreenSettings) : List (Nat × Bool) :=
  [(i, inRange c.width 640 1920 && decide (c.width % 16 = 0)),
   (i + 1, inRange c.height 360 1200 && decide (c.height % 8 = 0)),
   (i + 2, inRange c.period 19200 48000),
   (i + 3, decide (c.phase < c.period))]

/-- The checks of the memory window fields (R168, step 4). The window size's check takes in the window's last byte. -/
def windowChecks (st : Settings) : List (Nat × Bool) :=
  [(1, decide (st.windowBase % 4096 = 0)),
   (2, decide (st.windowSize % 4096 = 0) && inRange st.windowSize 1048576 68719476736 &&
       decide (st.windowBase + st.windowSize ≤ 2 ^ 64))]

/-- The checks of the remaining settings in index order (R168, step 6; R20, R71, R90, R97, R111, R133, R147). A check
that relates two fields stands at the later field (Table 11-2). Enumerated fields are judged from their codes in
memory; a field that takes any value has no check. -/
def fieldChecks (m : Mem) (book : Nat) (st : Settings) : List (Nat × Bool) :=
  let code := fun o => settingsField m book o 1
  let v := st.link
  let r := st.reverse
  let c := st.camera
  let pic := c.width * c.height * 2
  let ch := st.chime
  screenChecks 3 st.screens.centre ++ screenChecks 8 st.screens.left ++ screenChecks 13 st.screens.right ++
  [(18, inRange st.budget 10000 4000000), (19, inRange st.pwm 100 20000),
   (22, inRange st.nudgeRate 1 16), (23, inRange st.blinkPeriod 200 2000),
   (24, inRange v.bitRate 9600 1000000), (25, inRange (code 0x054) 0 2), (26, inRange v.stopBits 1 2),
   (27, inRange v.fresh.steer 20 5000), (28, inRange v.fresh.speed 20 5000), (29, inRange v.fresh.range 20 5000),
   (30, inRange v.fresh.gear 20 5000), (31, inRange v.fresh.dim 20 5000),
   (32, inRange v.restrictOff 0 30000),
   (33, inRange v.restrictOn 0 30000 && decide (v.restrictOff < v.restrictOn)),
   (34, inRange (code 0x064) 0 2), (35, inRange (code 0x065) 0 1),
   (36, inRange r.glitch 1 20), (37, inRange r.settleOn 5 250 && decide (r.glitch < r.settleOn)),
   (38, inRange r.settleOff 5 1000), (39, inRange r.linger 0 10000), (40, inRange r.lingerExit 0 30000)] ++
  [(41, inRange c.width 320 1920 && decide (c.width % 16 = 0)),
   (42, inRange c.height 240 1200 && decide (c.height % 8 = 0)), (43, inRange c.period 1500 9000),
   (44, inRange (code 0x076) 0 1), (45, inRange (code 0x077) 0 1),
   (46, inRange c.startLimit 200 3000), (47, inRange c.silence 100 1000),
   (49, decide (c.buffers.b0 % 16 = 0) && st.inWindow c.buffers.b0 pic),
   (50, decide (c.buffers.b1 % 16 = 0) && st.inWindow c.buffers.b1 pic && apart c.buffers.b0 c.buffers.b1 pic),
   (51, decide (c.buffers.b2 % 16 = 0) && st.inWindow c.buffers.b2 pic && apart c.buffers.b0 c.buffers.b2 pic &&
        apart c.buffers.b1 c.buffers.b2 pic),
   (52, decide (c.fallback % 16 = 0) && st.inWindow c.fallback pic),
   (53, decide (-4096 ≤ c.originX) && decide (c.originX ≤ 4095)),
   (54, decide (-4096 ≤ c.originY) && decide (c.originY ≤ 4095))] ++
  [(55, inRange (code 0x0A4) 0 1), (56, inRange st.guide.lineWidth 2 8), (57, inRange st.guide.deadband 0 50),
   (58, inRange st.guide.dNear 10 100),
   (59, inRange st.guide.dFar 50 250 && decide (st.guide.dNear < st.guide.dFar)),
   (65, inRange ch.faultPattern 0 31 || decide (ch.faultPattern = 255)), (67, inRange ch.parkFreq 100 8000),
   (68, inRange (code 0x0C4) 0 1), (69, inRange ch.parkAttack 0 20), (70, inRange ch.parkRelease 0 20),
   (71, inRange ch.tMin 100 500), (72, inRange ch.tMax 300 2000 && decide (ch.tMin ≤ ch.tMax)),
   (73, inRange ch.beep 30 200 && decide (ch.beep < 10 * (ch.tMin / 10)) &&
        decide (ch.parkAttack + ch.parkRelease ≤ ch.beep)),
   (74, inRange ch.duckHold 0 2000)]

/-- The index of the first check that fails. -/
def firstFail (l : List (Nat × Bool)) : Option Nat := (l.find? (fun c => !c.2)).map (·.1)

/-! ## The chime library (Table 11-3, R146) -/

/-- Note `n` of the pattern at `a`, with its wave code. -/
def readNote (m : Mem) (a n : Nat) : PatternNote × Nat :=
  let b := a + 16 + 16 * n
  let w := Mem.readLE m (b + 3) 1
  ({ freq := Mem.readLE m b 2, duty := Mem.readLE m (b + 2) 1, wave := (waveOf w).getD .square,
     level := Mem.readLE m (b + 4) 1, attack := Mem.readLE m (b + 6) 2, hold := Mem.readLE m (b + 8) 2,
     release := Mem.readLE m (b + 10) 2, gap := Mem.readLE m (b + 12) 2 }, w)

/-- A note is usable (R146). -/
def noteOk (n : PatternNote) (waveCode : Nat) : Bool :=
  (decide (n.freq = 0) || inRange n.freq 100 8000) && (waveOf waveCode).isSome && decide (n.attack ≤ 2000) &&
  decide (n.hold ≤ 2000) && decide (n.release ≤ 2000) && decide (n.gap ≤ 2000)

/-- The pattern at `a`: its notes when it is usable (R146). -/
def readPattern (m : Mem) (a : Nat) : Option Pattern :=
  let n := Mem.readLE m a 1
  if inRange n 1 8 then
    let ns := (List.range n).map (readNote m a)
    if ns.all (fun p => noteOk p.1 p.2) then some (ns.map (·.1)) else none
  else none

/-- The library: 32 patterns of 144 bytes from book offset 0x500 (Table 11-1). -/
def readLibrary (m : Mem) (book : Nat) : List (Option Pattern) :=
  (List.range 32).map (fun p => readPattern m (book + 0x500 + p * 144))

/-! ## The guide table (Table 11-8, R131, R132) -/

/-- The point at `a`. -/
def readPt (m : Mem) (a : Nat) : Pt := ⟨toSigned 16 (Mem.readLE m a 2), toSigned 16 (Mem.readLE m (a + 2) 2)⟩

/-- `n` points from `a`. -/
def readLine (m : Mem) (a n : Nat) : List Pt := (List.range n).map (fun j => readPt m (a + 4 * j))

/-- The guide table at `g` with `n` nodes and `k` marks. -/
def readGuideTable (m : Mem) (g n k : Nat) : GuideTable :=
  { angles := (List.range n).map (fun j => toSigned 16 (Mem.readLE m (g + 0x008 + 2 * j) 2)),
    dists := (List.range k).map (fun j => Mem.readLE m (g + 0x030 + 2 * j) 2),
    colours := (List.range k).map (fun j => Mem.readLE m (g + 0x040 + j) 1),
    dynLeft := (List.range n).map (fun j => readLine m (g + 0x050 + 32 * j) k),
    dynRight := (List.range n).map (fun j => readLine m (g + 0x270 + 32 * j) k),
    statLeft := readLine m (g + 0x490) k, statRight := readLine m (g + 0x4B0) k }

/-- Each element is greater than the one before it. -/
def risingInt : List Int → Bool
  | a :: b :: t => decide (a < b) && risingInt (b :: t)
  | _ => true

/-- Each element is greater than the one before it. -/
def risingNat : List Nat → Bool
  | a :: b :: t => decide (a < b) && risingNat (b :: t)
  | _ => true

/-- A point's coordinates are in range (Table 8-1). -/
def ptOk (p : Pt) : Bool :=
  decide (-2048 ≤ p.x) && decide (p.x ≤ 4095) && decide (-2048 ≤ p.y) && decide (p.y ≤ 4095)

/-- The judgement of the guide table in the order of R132, `n` and `k` being the node and mark counts read. -/
def judgeGuide (n k : Nat) (t : GuideTable) : GuideReason :=
  if !inRange n 2 17 then .nodeCount
  else if !inRange k 2 8 then .markCount
  else if !t.angles.all (fun a => decide (-9000 ≤ a) && decide (a ≤ 9000)) then .angleRange
  else if !risingInt t.angles then .angleOrder
  else if !t.dists.all (fun d => inRange d 1 1000) then .distanceRange
  else if !risingNat t.dists then .distanceOrder
  else if !t.colours.all (fun c => decide (c ≤ 2)) then .colour
  else if !((t.dynLeft ++ t.dynRight).all (fun l => l.all ptOk) && t.statLeft.all ptOk && t.statRight.all ptOk) then
    .pointRange
  else .none

end Sys2Proof.Machine
end

