-- ==== Sys2Proof/Machine/Chain.lean ====
section
/-! DEFINITION. The chain unit's polling event: the serial check (R6), abandonment (R7), the link to walk from, the
walk of up to four links with its checks (R9 to R12), and the handing of the entries that passed. STATUS_WRITE_ERROR
(R16). -/

namespace Sys2Proof.Machine

/-- An entry the walk handed to the client: its address, the link read with it, and its payload. -/
structure Handed (β : Type) where
  addr : Nat
  link : Option Nat
  body : β

/-- Why a walk could not hand an entry: the cause, and whether FAULT is written into the entry (R10 to R12). -/
structure EntryFault where
  cause : FaultCause
  write : Bool

/-- How a walk ended (R9). -/
inductive WalkEnd where
  | endOfChain
  | limit
  | fault (a : Nat) (f : EntryFault)

/-- The reader of one kind of payload: what it reads of the entry at an address, or a fault. -/
abbrev Reader (β : Type) := State → LinkErrs → Nat → Except EntryFault β

/-- A plan's layer records from `a` on, at most `n` of them (R22): each is judged against the window before it is
read (R175); the list runs too long when the last of them has its more flag set. -/
def readLayers (s : State) (e : LinkErrs) (a : Nat) : Nat → Except EntryFault (List Layer × Bool)
  | 0 => .ok ([], true)
  | n + 1 =>
    if !s.settings.inWindow a 48 then .error ⟨.address, true⟩
    else if touches e.reads a 48 then .error ⟨.readError, true⟩
    else
      let l := readLayer s.mem a
      if l.more then
        match readLayers s e (a + 48) n with
        | .ok (ls, long) => .ok (l :: ls, long)
        | .error f => .error f
      else .ok ([l], false)

/-- The payload of a plan entry. -/
def readPlan : Reader PlanBody := fun s e a =>
  match readLayers s e (a + 32) 6 with
  | .error f => .error f
  | .ok (ls, long) =>
    .ok { mode := modeOf (Mem.readLE s.mem (a + 20) 1), brightness := Mem.readLE s.mem (a + 21) 1, layers := ls,
          tooLong := long }

/-- The payload of a frame entry: bytes 32 to 47 are a later part of the entry (R175). -/
def readFrameEntry : Reader Frame := fun s e a =>
  if !s.settings.inWindow (a + 32) 16 then .error ⟨.address, true⟩
  else if touches e.reads (a + 32) 16 then .error ⟨.readError, true⟩
  else .ok (readFrame s.mem a)

/-- The payload of a chime entry. -/
def readChimeEntry : Reader ChimeBody := fun s _ a => .ok (readChime s.mem a)

/-- The checks of a newly reached entry, in their order: alignment, window (R10), an entry still held (R10, LOOP),
the read (R11), the kind tag (R12), the later parts (R10). -/
def reach {β : Type} (rd : Reader β) (s : State) (c : ChainId) (e : LinkErrs) (a : Nat) :
    Except EntryFault (Handed β) :=
  if a % 16 ≠ 0 then .error ⟨.alignment, false⟩
  else if !s.settings.inWindow a 32 then .error ⟨.address, false⟩
  else if (s.hold? c a).isSome then .error ⟨.loop, false⟩
  else if touches e.reads a 32 then .error ⟨.readError, true⟩
  else if Mem.readLE s.mem (a + 16) 4 ≠ kindTag c then .error ⟨.kind, true⟩
  else
    match rd s e a with
    | .error f => .error f
    | .ok b => .ok ⟨a, linkOf (Mem.readLE s.mem (a + 8) 8), b⟩

/-- Follow at most `n` links (R9). A failed check names the entry reached, also when a later part of it lies outside the
window (Log 33); an entry is held when it was before the walk (Log 13). -/
def walk {β : Type} (rd : Reader β) (s : State) (c : ChainId) (e : LinkErrs) :
    Nat → Option Nat → List (Handed β) × WalkEnd
  | 0, _ => ([], .limit)
  | _ + 1, none => ([], .endOfChain)
  | n + 1, some a =>
    match reach rd s c e a with
    | .error f => ([], .fault a f)
    | .ok h =>
      let r := walk rd s c e n h.link
      (h :: r.1, r.2)

/-- One word of a faulty entry is written, `bad` telling that the write fails: the failure is counted (R19) and the word
is then free (Log 6). -/
def State.faultWord (s : State) (c : ChainId) (a : Nat) (v : Word) (bad : Bool) : State :=
  if bad then
    let s := { s with mem := Mem.writeLE s.mem a 4 (Config.lostWord s.freeIx).toNat, freeIx := s.freeIx + 1 }
    s.setChain c { s.chain c with statusWriteErrors := bump (s.chain c).statusWriteErrors }
  else { s with mem := Mem.writeLE s.mem a 4 v.toNat }

/-- FAULT is written into an entry, its report word first (R11, R12, R14). The entry is final, and the family's notice
raised, when the status word's write completes; when that one fails the entry is unreachable (R11). -/
def State.writeFault (s : State) (c : ChainId) (e : LinkErrs) (a : Nat) : State :=
  let h : Hold := { Hold.fresh c a with verdict := some .fault }
  let bad := touches e.writes a 4
  ((s.faultWord c (a + 4) (reportWord h.count h.late) (touches e.writes (a + 4) 4)).faultWord c a h.finalWord bad).raiseIf
    (!bad) (family c)

/-- The chain's answer to a faulty entry: FAULT is written where the header can be written (R10 to R12), and the chain
goes FAULTED with the entry's cause whether or not the writes complete (R11, Log 18). A part of an entry that lies
outside the window is recorded by the entry's address (Log 33). -/
def State.faultEntry (s : State) (c : ChainId) (e : LinkErrs) (a : Nat) (f : EntryFault) : State :=
  (if f.write then s.writeFault c e a else s).faultChain c f.cause a

/-- The walk from a link: the entries handed, how it ended, and the state with the fault of the walk recorded. -/
def State.runWalk {β : Type} (s : State) (rd : Reader β) (c : ChainId) (e : LinkErrs) (link : Option Nat) :
    List (Handed β) × WalkEnd × State :=
  let r := walk rd s c e 4 link
  match r.2 with
  | .fault a f => (r.1, r.2, s.faultEntry c e a f)
  | .endOfChain => (r.1, r.2, s)
  | .limit => (r.1, r.2, s)

/-- The result of the serial check. -/
inductive Serial where
  | failed
  | same
  | changed
  deriving DecidableEq, Repr

/-- The serial check (R6, R7, R17): the root's serial is read; a read error is recorded (R11) and ends the polling
event; a changed serial abandons the chain and becomes the last seen serial. -/
def State.checkSerial (s : State) (c : ChainId) (e : LinkErrs) : Serial × State :=
  let root := s.rootAddr c
  if touches e.reads (root + 8) 4 then (.failed, s.rootReadError c)
  else
    let v := BitVec.ofNat 32 (Mem.readLE s.mem (root + 8) 4)
    if v = (s.chain c).lastSerial then (.same, s)
    else
      let s := s.abandon c
      (.changed, s.setChain c { s.chain c with lastSerial := v })

/-- The link to walk from (R6, R9, R17): none when the chain is FAULTED or the read fails; the cursor's link read
afresh, or the root link when there is no cursor. -/
def State.startLink (s : State) (c : ChainId) (e : LinkErrs) : Option (Option Nat) × State :=
  if (s.chain c).state = .faulted then (none, s)
  else
    match (s.chain c).cursor with
    | some a =>
      if touches e.reads (a + 8) 8 then (none, s.faultChain c .linkRead a)
      else (some (linkOf (Mem.readLE s.mem (a + 8) 8)), s)
    | none =>
      let root := s.rootAddr c
      if touches e.reads root 8 then (none, s.rootReadError c)
      else (some (linkOf (Mem.readLE s.mem root 8)), s)

/-- The walk of a polling event after its serial check: the entries handed and, when a walk was made, how it ended. -/
def State.pollWalk {β : Type} (s : State) (rd : Reader β) (c : ChainId) (e : LinkErrs) :
    List (Handed β) × Option WalkEnd × State :=
  let q := s.startLink c e
  match q.1 with
  | none => ([], none, q.2)
  | some l =>
    let r := q.2.runWalk rd c e l
    (r.1, some r.2.1, r.2.2)

/-- Whether the part can have a status write under way: not in OFF, where the stop or reset has ended them, and not
in STARTING, which makes no memory write (R168, Log 6). -/
def State.writesEntries (s : State) : Bool := decide (s.runState ≠ .off) && decide (s.runState ≠ .starting)

/-- STATUS_WRITE_ERROR (R16): the chain goes FAULTED with cause WRITE_ERROR and the entry's address, and the failure
is counted. Hold records stay as the writes left them: a failed final write has discarded its record, a failed
non-final write keeps it. What the word holds in host memory is free (Log 6). -/
def execStatusWriteError (c : ChainId) (addr : BitVec 64) (w : EntryWord) (s : State) :
    Host.Outcome State Fault Refusal :=
  if s.writesEntries then
    let off := match w with | .status => 0 | .report => 4
    let s := { s with mem := Mem.writeLE s.mem (addr.toNat + off) 4 (Config.lostWord s.freeIx).toNat,
                      freeIx := s.freeIx + 1 }
    .next (s.statusWriteFailed c addr.toNat)
  else .next s

end Sys2Proof.Machine
end

