-- ==== Sys2Proof/Machine/Screens.lean ====
section
/-! DEFINITION. The screen controllers outside their frame starts: duty, PWM, starting and stopping the timing
generators, admission records (Chapter 2). PWM_PERIOD_START and BLINK_PHASE_CHANGE. -/

namespace Sys2Proof.Machine

/-! ## Backlight (R30, R31) -/

/-- The duty of a screen outside takeover: 0 in DARK or without a current plan, else floor(brightness × dim / 255). -/
def planDuty (plan : Option Plan) (mode : Mode) (dim : Nat) : Nat :=
  match plan with
  | none => 0
  | some p => if mode = .dark then 0 else p.brightness * dim / 255

/-- The centre duty while the takeover picture is shown (R31). -/
def takeoverDuty (st : Settings) (dim : Nat) : Nat := max (st.takeoverBrightness * dim / 255) st.brightnessFloor

/-- The duty of a screen as its last frame start left it and the dim value stands. -/
def Screen.dutyFor (sc : Screen) (st : Settings) (dim : Nat) : Nat :=
  if sc.showsTakeover then takeoverDuty st dim else planDuty sc.plan sc.mode dim

/-- An accepted DIM message: every screen recomputes its duty (R30, R31, Table 6-4, Log 24). -/
def State.recomputeDuties (s : State) : State :=
  { s with screens := s.screens.map (fun sc => { sc with duty := sc.dutyFor s.settings s.vehicle.dimInUse }) }

/-- PWM_PERIOD_START (R30): a newly computed duty takes effect on the output. -/
def execPwmPeriodStart (i : ScreenId) (s : State) : Host.Outcome State Fault Refusal :=
  .next (s.modScreen i (fun sc => { sc with dutyOut := sc.duty }))

/-- BLINK_PHASE_CHANGE (R90): the running blink timer reaches the end of a half cycle. -/
def execBlinkPhaseChange (s : State) : Host.Outcome State Fault Refusal :=
  if s.blinkRunning then .next { s with blinkOn := !s.blinkOn } else .next s

/-! ## Timing generators (R21, R38) -/

/-- The cover mark of the screen's pipe (R53, R57): the refresh's in progress, else the one kept from the last. -/
def Screen.coverMark (sc : Screen) : Bool :=
  match sc.refresh with
  | some r => r.cover
  | none => sc.coverKept

/-- The generator stops: the panel goes IDLE and the backlight inactive (R29, R31, R38), its duty value 0 too (Log 41); the
cover mark is kept (R57). -/
def Screen.stopped (sc : Screen) : Screen :=
  { sc with genOn := false, refresh := none, coverKept := sc.coverMark, panel := .idle, duty := 0, dutyOut := 0 }

/-- The part leaves RUN: a refresh in progress becomes the screen's last and is completed; without one the generator
stops at once (R21, R41). -/
def Screen.leaveRun (sc : Screen) : Screen :=
  match sc.refresh with
  | some r => { sc with refresh := some { r with final := true } }
  | none => sc.stopped

/-- The generator starts: its first frame start falls one phase offset later (R21). -/
def Screen.startGen (sc : Screen) (st : ScreenSettings) : Screen := { sc with genOn := true, nextStart := st.phase }

/-- Every screen's generator starts. -/
def State.startGens (s : State) : State :=
  { s with screens := ⟨s.screens.centre.startGen s.settings.screens.centre,
                       s.screens.left.startGen s.settings.screens.left,
                       s.screens.right.startGen s.settings.screens.right⟩ }

/-- Every admission record returns to its start value (R37). -/
def State.clearAdmissions (s : State) : State :=
  { s with screens := s.screens.map (fun sc => { sc with adm := Admission.reset }) }

/-- No screen has a refresh in progress. -/
def State.noRefresh (s : State) : Bool :=
  s.screens.centre.refresh.isNone && s.screens.left.refresh.isNone && s.screens.right.refresh.isNone

/-- The screen's current plan holds a valid CAMERA layer (R122). -/
def Screen.hasCamera (sc : Screen) : Bool :=
  match sc.plan with
  | some p => p.layers.any (fun l => decide (l.layer.kind = .camera))
  | none => false

end Sys2Proof.Machine
end

