-- ==== Sys2Proof/Machine/Camera.lean ====
section
/-! DEFINITION. The camera capture unit and the view status (sections 7.6 to 7.8): capture enable and disable, the
camera port's commands, and the start limit and silence timers. -/

namespace Sys2Proof.Machine

/-- `s` with its capture unit changed by `f`. -/
def State.modCamera (s : State) (f : Camera → Camera) : State := { s with camera := f s.camera }

/-- `s` with its takeover controller changed by `f`. -/
def State.modTakeover (s : State) (f : Takeover → Takeover) : State := { s with takeover := f s.takeover }

/-! ## Buffer roles (Table 7-4) -/

/-- The lowest-numbered buffer holding a role. -/
def bufferOf (p : PerBuffer Role) (r : Role) : Option Nat :=
  if p.b0 = r then some 0 else if p.b1 = r then some 1 else if p.b2 = r then some 2 else none

/-- The buffer holding `r`, if any, takes the role `r'`. -/
def moveRole (p : PerBuffer Role) (r r' : Role) : PerBuffer Role :=
  match bufferOf p r with
  | some n => p.set n r'
  | none => p

/-- The memory load of capture (R32). -/
def captureLoad (c : CameraSettings) : Nat := divUp (c.width * c.height * 2 * 90) c.period

/-! ## View status (R128) -/

/-- The view status changes; TAKEOVER is raised at each change (R116). -/
def State.setView (s : State) (v : Option View) : State :=
  (s.modTakeover (fun t => { t with view := v })).raiseIf (decide (s.takeover.view ≠ v)) .takeover

/-- The view status becomes LOST and is counted (R128). -/
def State.loseView (s : State) : State :=
  (s.setView (some .lost)).modTakeover (fun t => { t with losts := bump t.losts })

/-- The view status WAIT, with the start limit timer started (R116, R122). -/
def State.waitView (s : State) : State :=
  (s.setView (some .wait)).modTakeover (fun t => { t with startLimit := some s.settings.camera.startLimit })

/-- The view status LIVE, with the start limit timer stopped (R128). -/
def State.liveView (s : State) : State :=
  (s.setView (some .live)).modTakeover (fun t => { t with startLimit := none })

/-! ## Capture enable and disable (R122, R123) -/

/-- The frame in progress is given up. -/
def Camera.noFrame (c : Camera) : Camera :=
  { c with lines := 0, inLine := false, pixels := 0, error := none, writeStopped := false }

/-- Capture becomes enabled (R122), the view status apart. -/
def State.enableCapture (s : State) : State :=
  let s := s.modCamera (fun c =>
    { c.noFrame with enabled := true, unit := .seeking, roles := moveRole c.roles .free .capturing, silent := true })
  { s.modTakeover (fun t => { t with silence := none }) with capLoad := captureLoad s.settings.camera }

/-- Capture becomes disabled (R123); `leaving` tells that the part leaves RUN, where a SHOWN buffer is freed at once
when the centre has no refresh in progress. -/
def State.disableCapture (s : State) (leaving : Bool) : State :=
  let freeShown := leaving && s.screens.centre.refresh.isNone
  let s := s.modCamera (fun c =>
    let roles := moveRole (moveRole c.roles .capturing .free) .ready .free
    { c.noFrame with enabled := false, unit := .idle, silent := true,
                     roles := if freeShown then moveRole roles .shown .free else roles })
  let s := (s.setView none).modTakeover (fun t => { t with startLimit := none, silence := none })
  { s with capLoad := 0 }

/-- The condition for capture (R122). -/
def State.captureWanted (s : State) : Bool :=
  decide (s.runState = .run) &&
  (decide (s.takeover.state ≠ .normal) || s.screens.centre.hasCamera || s.settings.camera.warm)

/-- The condition is judged again (R122); an enable here sets the view status WAIT. -/
def State.judgeCapture (s : State) : State :=
  if s.captureWanted then
    if s.camera.enabled then s else s.enableCapture.waitView
  else if s.camera.enabled then s.disableCapture (decide (s.runState ≠ .run))
  else s

/-! ## The camera port (R124 to R126) -/

/-- Note the first error of the frame. -/
def Camera.note (c : Camera) (e : CameraError) : Camera := { c with error := some (c.error.getD e) }

/-- A marker completes the line in progress: a LINE error when it held other than CW pixels. -/
def Camera.completeLine (c : Camera) (cw : Nat) : Camera :=
  if c.inLine ∧ c.pixels ≠ cw then c.note .line else c

/-- The counter of an error (R126). -/
def Camera.countError (c : Camera) : CameraError → Camera
  | .line => { c with lineErrs := bump c.lineErrs }
  | .count => { c with countErrs := bump c.countErrs }
  | .truncated => { c with truncErrs := bump c.truncErrs }
  | .write => { c with writeErrs := bump c.writeErrs }

/-- A frame with an error noted is discarded: counted by its cause, CAMERA raised, no role changed (R126). -/
def State.discardFrame (s : State) (e : CameraError) : State := (s.modCamera (fun c => c.countError e)).raise .camera

/-- The end of a correct frame (R125). -/
def Camera.correctFrame (c : Camera) : Camera :=
  let ready := bufferOf c.roles .ready
  let roles := moveRole c.roles .capturing .ready
  { c with
    roles := match ready with
      | some n => roles.set n .capturing
      | none => moveRole roles .free .capturing
    dropped := if ready.isSome then bump c.dropped else c.dropped
    correct := bump c.correct
    silent := false }

/-- CAMERA_FRAME_START_MARKER (R124): from SEEKING to RECEIVING; in RECEIVING it truncates the frame in progress. -/
def execCameraFrameStartMarker (s : State) : Host.Outcome State Fault Refusal :=
  match s.camera.unit with
  | .idle => .next s
  | .seeking => .next (s.modCamera (fun c => { c.noFrame with unit := .receiving }))
  | .receiving =>
    let c := (s.camera.completeLine s.settings.camera.width).note .truncated
    .next ((s.discardFrame (c.error.getD .truncated)).modCamera Camera.noFrame)

/-- CAMERA_LINE_MARKER (R124). -/
def execCameraLineMarker (s : State) : Host.Outcome State Fault Refusal :=
  if s.camera.unit = .receiving then
    .next (s.modCamera (fun c =>
      let c := c.completeLine s.settings.camera.width
      let c := if s.settings.camera.height ≤ c.lines then c.note .count else c
      { c with lines := c.lines + 1, inLine := true, pixels := 0 }))
  else .next s

/-- The address a pixel is written to, when it is written (R124): in the CAPTURING buffer, at its line and column,
within the CH lines and CW pixels, unless a WRITE error ended the frame's writes. -/
def State.pixelAddr (s : State) : Option Nat :=
  let c := s.camera
  let st := s.settings.camera
  if c.unit = .receiving ∧ c.inLine ∧ c.lines ≤ st.height ∧ c.pixels < st.width ∧ ¬ c.writeStopped then
    (bufferOf c.roles .capturing).map (fun n => st.buffers.get n + (c.lines - 1) * st.width * 2 + c.pixels * 2)
  else none

/-- The bytes of a pixel written where `pixelAddr` says. -/
def State.writePixel (s : State) (y c : Byte) : State :=
  match s.pixelAddr with
  | some a => { s with mem := Mem.set (Mem.set s.mem a y) (a + 1) c }
  | none => s

/-- CAMERA_PIXEL (R124): a pixel before the first line marker is a LINE error and is not written. -/
def execCameraPixel (y c : Byte) (s : State) : Host.Outcome State Fault Refusal :=
  if s.camera.unit = .receiving then
    if s.camera.inLine then
      .next ((s.writePixel y c).modCamera (fun k => { k with pixels := k.pixels + 1 }))
    else .next (s.modCamera (fun k => k.note .line))
  else .next s

/-- CAMERA_FRAME_END_MARKER (R124 to R126): the frame ends, correct when no error was noted, and the unit returns to
SEEKING. -/
def execCameraFrameEndMarker (s : State) : Host.Outcome State Fault Refusal :=
  if s.camera.unit = .receiving then
    let c := s.camera.completeLine s.settings.camera.width
    let c := if c.lines < s.settings.camera.height then c.note .count else c
    let s := s.modCamera (fun k => { k.noFrame with unit := .seeking })
    match c.error with
    | some e => .next (s.discardFrame e)
    | none =>
      .next ((s.modCamera Camera.correctFrame).modTakeover
        (fun t => { t with silence := some s.settings.camera.silence }))
  else .next s

/-- CAMERA_WRITE_ERROR (R124): a WRITE error of the frame in progress; no further write is made for it.
Reported after the frame's end marker it is laid to the frame then in progress, and in SEEKING to none (Log 21). -/
def execCameraWriteError (s : State) : Host.Outcome State Fault Refusal :=
  if s.camera.unit = .receiving then
    .next (s.modCamera (fun c => { c.note .write with writeStopped := true }))
  else .next s

/-! ## Timers (R128) -/

/-- START_LIMIT_EXPIRY (R128): the running start limit timer expires in WAIT, and the view status becomes LOST. -/
def execStartLimitExpiry (s : State) : Host.Outcome State Fault Refusal :=
  match s.takeover.startLimit with
  | none => .next s
  | some _ =>
    let s := s.modTakeover (fun t => { t with startLimit := none })
    if s.takeover.view = some .wait then .next s.loseView else .next s

/-- SILENCE_TIMER_EXPIRY (R125, R128): the silent mark is set; a LIVE view status becomes LOST. -/
def execSilenceTimerExpiry (s : State) : Host.Outcome State Fault Refusal :=
  match s.takeover.silence with
  | none => .next s
  | some _ =>
    let s := (s.modTakeover (fun t => { t with silence := none })).modCamera (fun c => { c with silent := true })
    if s.takeover.view = some .live then .next s.loseView else .next s

/-! ## Buffer roles at a centre frame start (R127) -/

/-- The capture unit's acts at a centre frame start, `cameraRefresh` telling whether the new refresh is one: the READY
buffer becomes SHOWN and the view LIVE; a SHOWN buffer the refresh will not draw becomes FREE. -/
def State.rotateBuffers (s : State) (cameraRefresh : Bool) : State :=
  let s :=
    if s.camera.enabled && cameraRefresh && (bufferOf s.camera.roles .ready).isSome then
      (s.modCamera (fun c => { c with roles := moveRole (moveRole c.roles .shown .free) .ready .shown })).liveView
    else s
  if cameraRefresh && decide (s.takeover.view = some .live) then s
  else s.modCamera (fun c => { c with roles := moveRole c.roles .shown .free })

end Sys2Proof.Machine
end

