-- ==== Sys2Proof/Machine/Guide.lean ====
section
/-! DEFINITION. The guide engine (Chapter 8): the angle in use, interpolation, the parking zone record and the
obstacle marker. -/

namespace Sys2Proof.Machine

/-! ## The steering angle in use (R134, R135) -/

/-- The angle in use is set without regard to the deadband (R134). -/
def Guide.setAngle (g : Guide) (a : Int) : Guide := { g with set := { g.set with angleInUse := a } }

/-- A STEER acceptance (R134, R135): one that makes STEER fresh sets the angle and the dynamic-shown flag; otherwise
the angle follows when it differs by the deadband or more. -/
def Guide.steer (g : Guide) (deadband : Nat) (wasFresh : Bool) (a : Int) : Guide :=
  if wasFresh then
    if deadband ≤ (a - g.set.angleInUse).natAbs then g.setAngle a else g
  else { g with set := { g.set with angleInUse := a, dynamicShown := true } }

/-- A change of STEER to stale clears the dynamic-shown flag (R134). -/
def Guide.steerStale (g : Guide) : Guide := { g with set := { g.set with dynamicShown := false } }

/-! ## Interpolation (R136, R137) -/

/-- The lowest index `i` for which `as[i] ≤ s ≤ as[i+1]` (R137, step 2). -/
def bracketOf : List Int → Int → Nat
  | a :: b :: t, s => if a ≤ s ∧ s ≤ b then 0 else bracketOf (b :: t) s + 1
  | _, _ => 0

/-- The weight of `s` between `lo` and `hi`, in 256ths (R137, step 3). -/
def weightOf (lo hi s : Int) : Nat := ((s - lo) * 256 / (hi - lo)).toNat

/-- One interpolated coordinate (R137, step 4). -/
def interpCoord (c0 c1 : Int) (w : Nat) : Int := c0 + ((c1 - c0) * w + 128) / 256

/-- One interpolated point. -/
def interpPt (w : Nat) (p q : Pt) : Pt := ⟨interpCoord p.x q.x w, interpCoord p.y q.y w⟩

/-- The first and last of a list of nodes or marks. -/
def clampTo (as : List Int) (v : Int) : Int := clampInt (as.headD 0) (as.getLastD 0) v

/-- The interpolation at the angle in use (R137). Without a table none is made (R136). -/
def Guide.interpolate (g : Guide) : Guide :=
  match g.table with
  | none => g
  | some t =>
    let s := clampTo t.angles g.set.angleInUse
    let i := bracketOf t.angles s
    let w := weightOf (t.angles.getD i 0) (t.angles.getD (i + 1) 0) s
    { g with set :=
        { g.set with
          angleUsed := s, bracket := i, weight := w,
          dynLeft := List.zipWith (interpPt w) (t.dynLeft.getD i []) (t.dynLeft.getD (i + 1) []),
          dynRight := List.zipWith (interpPt w) (t.dynRight.getD i []) (t.dynRight.getD (i + 1) []) } }

/-! ## The parking zone (R139, R140) -/

/-- The values a RANGE sensor may report beside a distance (Table 6-2). -/
def noEcho : Nat := 0xFFFF

/-- As `noEcho`: the sensor's own fault. -/
def sensorFault : Nat := 0xFFFE

/-- The nearest distance: the least value that is neither no echo nor sensor fault (R139). -/
def nearest (rs : List Nat) : Option Nat := (rs.filter (fun v => v != noEcho && v != sensorFault)).min?

/-- The zone of four range values (R139). -/
def zoneOf (st : GuideSettings) (rs : List Nat) : Zone :=
  if rs.all (· == sensorFault) then .unknown
  else
    match nearest rs with
    | none => .clear
    | some d => if st.dFar ≤ d then .clear else if d ≤ st.dNear then .stop else .caution

/-- The parking zone record is set. -/
def Guide.setZone (g : Guide) (z : Zone) (d : Option Nat) : Guide := { g with set := { g.set with zone := z, dist := d } }

/-! ## The obstacle marker (R141) -/

/-- The point between marks `j` and `j + 1` of a line. -/
def onLine (l : List Pt) (j u : Nat) : Pt := interpPt u (l.getD j ⟨0, 0⟩) (l.getD (j + 1) ⟨0, 0⟩)

/-- The placement of the marker from the parking zone record (R141). -/
def Guide.placeMarker (g : Guide) : Guide :=
  match g.table with
  | none => g
  | some t =>
    if g.set.zone = .caution ∨ g.set.zone = .stop then
      let ds := t.dists.map Int.ofNat
      let d' := clampTo ds ((g.set.dist.getD 0 : Nat) : Int)
      let j := bracketOf ds d'
      let u := weightOf (ds.getD j 0) (ds.getD (j + 1) 0) d'
      let left := if g.set.dynamicShown then g.set.dynLeft else t.statLeft
      let right := if g.set.dynamicShown then g.set.dynRight else t.statRight
      { g with set := { g.set with markerShown := true, markerDist := d'.toNat, markerLeft := onLine left j u,
                                   markerRight := onLine right j u } }
    else { g with set := { g.set with markerShown := false } }

/-! ## Start (R132, R133, R144) -/

/-- The guide engine at the entry into RUN: the table as judged, the guide state, the angle 0, the zone UNKNOWN, and
one interpolation when a table is kept (R136, R144); the rest of the record, the marker's among it, is 0 (Log 45). -/
def Guide.started (reason : GuideReason) (t : GuideTable) (enable : Bool) : Guide :=
  if reason = .none then
    Guide.interpolate
      { state := if enable then .inUse else .disabled, reason := .none, table := some t, set := GuideRec.reset }
  else { state := .tableRejected, reason := reason, table := none, set := GuideRec.reset }

end Sys2Proof.Machine
end

