-- ==== Sys2Proof/Machine/Plans.lean ====
section
/-! DEFINITION. Plan advance (R22 to R26) and the load governor (R32 to R36). -/

namespace Sys2Proof.Machine

/-! ## Load (R33, R34) -/

/-- The length of the part of `[x, x + w)` that lies in `[0, n)`. -/
def visibleLen (x : Int) (w n : Nat) : Nat :=
  ((if x + w < n then x + w else (n : Int)) - (if x < 0 then 0 else x)).toNat

/-- The visible area V of a rectangle on a screen (R33). -/
def visibleArea (st : ScreenSettings) (x y : Int) (w h : Nat) : Nat := visibleLen x w st.width * visibleLen y h st.height

/-- The load of a layer of a kind with visible area `v` on a screen of period `p` (Table 2-5). -/
def kindLoad (k : LayerKind) (f : Option PixFormat) (v p : Nat) : Nat :=
  match k with
  | .fill => 0
  | .picture =>
    match f with
    | some g => divUp (v * g.bytes * 1440) p
    | none => 0
  | .film => divUp (v * 4 * 1440) p
  | .cells => divUp (v * 1440) (2 * p)
  | .camera => divUp (v * 2 * 1440) p
  | .unknown _ => 0

/-- The load of a layer of a plan on screen `i` (R33); `covered` tells that the motion state is MOVING or UNKNOWN. -/
def Layer.load (l : Layer) (st : ScreenSettings) (i : ScreenId) (covered : Bool) : Nat :=
  if i = .centre ∧ l.restricted ∧ covered then 0
  else kindLoad l.kind l.format (visibleArea st l.x l.y l.w l.h) st.period

/-- The motion state is MOVING or UNKNOWN (R33, R53). -/
def State.covered (s : State) : Bool := decide (s.vehicle.motion ≠ .still)

/-- The load of the takeover picture (R34): the camera picture at the camera origin, and the cell layer in use. -/
def takeoverLoad (st : Settings) : Nat :=
  let sc := st.screens.centre
  let c := st.camera
  divUp (visibleArea sc c.originX c.originY c.width c.height * 2 * 1440) sc.period +
  match st.cellLayer with
  | some l => divUp (visibleArea sc l.x l.y l.w l.h * 1440) (2 * sc.period)
  | none => 0

/-! ## Admission (R35, R36) -/

/-- A layer that may be shed: its record number and its load. -/
structure Shedable where
  idx : Nat
  load : Nat
  deriving DecidableEq, Repr

/-- The layers of one shed rank, frontmost first. -/
def ofRank (ls : List PlanLayer) (r : Nat) : List PlanLayer := (ls.filter (fun l => l.layer.rank == r)).reverse

/-- The layers of nonzero rank in the order in which they are shed: descending rank, frontmost first (R35). -/
def shedOrder (ls : List PlanLayer) : List PlanLayer :=
  ofRank ls 7 ++ ofRank ls 6 ++ ofRank ls 5 ++ ofRank ls 4 ++ ofRank ls 3 ++ ofRank ls 2 ++ ofRank ls 1

/-- Shed layers until the demand fits (R35): the admitted load, the shed mask, and whether the screen is overloaded. -/
def shedLoop : List Shedable → Nat → Int → BitVec 6 → Admission
  | [], d, avail, m => { load := d, mask := m, overload := decide (avail < d) }
  | c :: t, d, avail, m =>
    if (d : Int) ≤ avail then { load := d, mask := m, overload := false }
    else shedLoop t (d - c.load) avail (m ||| BitVec.twoPow 6 c.idx)

/-- The load of a layer in the mode in effect: 0 in BLANK and DARK (R34, Log 11). -/
def State.layerLoad (s : State) (i : ScreenId) (mode : Mode) (l : PlanLayer) : Nat :=
  match mode with
  | .blank => 0
  | .dark => 0
  | .normal => l.layer.load (s.screenSettings i) i s.covered
  | .invert => l.layer.load (s.screenSettings i) i s.covered

/-- The admission of screen `i` against an available load (R34, R35). -/
def State.admissionFor (s : State) (i : ScreenId) (avail : Int) : Admission :=
  let sc := s.screens.get i
  if sc.showsTakeover then shedLoop [] (takeoverLoad s.settings) avail 0
  else
    match sc.plan with
    | none => shedLoop [] 0 avail 0
    | some p =>
      let load := s.layerLoad i sc.mode
      shedLoop ((shedOrder p.layers).map (fun l => ⟨l.idx, load l⟩)) ((p.layers.map load).sum) avail 0

/-- The admitted loads of the other two screens. -/
def State.otherLoads (s : State) (i : ScreenId) : Nat :=
  match i with
  | .centre => s.screens.left.adm.load + s.screens.right.adm.load
  | .left => s.screens.centre.adm.load + s.screens.right.adm.load
  | .right => s.screens.centre.adm.load + s.screens.left.adm.load

/-- The available load of screen `i` (R35). -/
def State.available (s : State) (i : ScreenId) : Int :=
  (s.settings.budget : Int) - s.otherLoads i - s.capLoad

/-- The shed mask of an admission is recorded for the current plan and its status word rewritten when it differs from
the one last written (R36). -/
def State.recordShed (s : State) (i : ScreenId) (mask : BitVec 6) : State :=
  match (s.screens.get i).plan with
  | none => s
  | some p => (s.modHold (.plan i) p.addr (fun h => { h with shed := mask })).settle (.plan i) p.addr

/-- The admission of screen `i` at its frame start (R35, R36). -/
def State.admission (s : State) (i : ScreenId) : State :=
  let sc := s.screens.get i
  let a := s.admissionFor i (s.available i)
  let newly := a.overload && !sc.adm.overload
  let s := s.modScreen i (fun sc => { sc with adm := a, overloads := if newly then bump sc.overloads else sc.overloads })
  (s.raiseIf newly .overload).recordShed i a.mask

/-! ## Plan advance (R22 to R26) -/

/-- A plan that is not REJECTED (R22). -/
def PlanBody.ok (b : PlanBody) : Bool := b.mode.isSome && !b.tooLong

/-- The layer records with their numbers from `n` on. -/
def numberLayers : List Layer → Nat → List PlanLayer
  | [], _ => []
  | l :: t, n => ⟨n, l⟩ :: numberLayers t (n + 1)

/-- The invalid mask: a bit for each layer that is not valid (R23). -/
def invalidMask (st : Settings) (i : ScreenId) (ls : List PlanLayer) : BitVec 6 :=
  ls.foldl (fun m l => if l.layer.valid st i then m else m ||| BitVec.twoPow 6 l.idx) 0

/-- A plan as screen `i` takes it: each layer judged, the valid ones kept in record order (R23). -/
def takePlan (st : Settings) (i : ScreenId) (a : Nat) (b : PlanBody) : Plan :=
  let ls := numberLayers b.layers 0
  { addr := a, mode := b.mode.getD .dark, brightness := b.brightness,
    layers := ls.filter (fun l => l.layer.valid st i), invalid := invalidMask st i ls }

/-- The last valid plan a walk handed (R25). -/
def lastValid : List (Handed PlanBody) → Option (Handed PlanBody)
  | [] => none
  | h :: t =>
    match lastValid t with
    | some x => some x
    | none => if h.body.ok then some h else none

/-- The hold record of a consumed plan (R22, R25): REJECTED, SKIPPED, or taken with a client hold. -/
def planHold (i : ScreenId) (taken : Option Plan) (h : Handed PlanBody) : Hold :=
  let r := Hold.fresh (.plan i) h.addr
  if !h.body.ok then { r with verdict := some .rejected }
  else
    match taken with
    | some p =>
      if h.addr = p.addr then { r with client := true, used := true, invalid := p.invalid }
      else { r with verdict := some .skipped }
    | none => { r with verdict := some .skipped }

/-- The current plan of screen `i`, if there is one, loses its client hold, and with it the screen's reference: the
refresh that begins at this frame start composes another plan or none (R15, section 1.9, step 2). -/
def State.endPlan (s : State) (i : ScreenId) : State :=
  match (s.screens.get i).plan with
  | some p =>
    (s.modHold (.plan i) p.addr (fun h => { h with refs := h.refs.set i false })).endClient (.plan i) p.addr
  | none => s

/-- The screen's current plan becomes `p` (R25, R26). -/
def State.setPlan (s : State) (i : ScreenId) (p : Option Plan) : State := s.modScreen i (fun sc => { sc with plan := p })

/-- The walk's entries are consumed (R25); `restarted` tells that the serial had changed, upon which a walk that hands
no valid plan drops the current plan (R26). -/
def State.takePlans (s : State) (i : ScreenId) (hs : List (Handed PlanBody)) (restarted : Bool) : State :=
  match lastValid hs with
  | some h =>
    let p := takePlan s.settings i h.addr h.body
    ((s.endPlan i).consume (.plan i) (hs.map (planHold i (some p)))).setPlan i (some p)
  | none =>
    let s := if restarted then (s.endPlan i).setPlan i none else s
    s.consume (.plan i) (hs.map (planHold i none))

/-- The plan advance of screen `i` (R25, R26). -/
def State.planAdvance (s : State) (i : ScreenId) (e : LinkErrs) : State :=
  let q := s.checkSerial (.plan i) e
  if q.1 = .failed then q.2
  else
    let r := q.2.pollWalk readPlan (.plan i) e
    r.2.2.takePlans i r.1 (decide (q.1 = .changed))

end Sys2Proof.Machine
end

