-- ==== Sys2Proof/Machine/Compose.lean ====
section
/-! DEFINITION. The compositor pipes and the cell renderer (Chapters 3 and 5): one pixel of a refresh from its
composition set and from what host memory holds when the pixel is sent. FETCH_ERROR (R56). -/

namespace Sys2Proof.Machine

/-! ## Pixels and blending (R44, R45) -/

/-- An opaque colour as ARGB. -/
def Rgb.opaqueArgb (c : Rgb) : Argb := ⟨255, c.r, c.g, c.b⟩

/-- The red, green and blue of an ARGB value. -/
def Argb.rgb (c : Argb) : Rgb := ⟨c.r, c.g, c.b⟩

/-- An RGB565 pixel expanded (Tables 3-1 and 11-6). -/
def expand565 (v : Nat) : Argb :=
  let r := v / 2048 % 32
  let g := v / 32 % 64
  let b := v % 32
  ⟨255, r * 8 + r / 4, g * 4 + g / 16, b * 8 + b / 4⟩

/-- The pixel of a format at an address (Table 3-1). -/
def readPixel (m : Mem) (f : PixFormat) (a : Nat) : Argb :=
  match f with
  | .rgb565 => expand565 (Mem.readLE m a 2)
  | .xrgb8888 => (rgbOf (Mem.readLE m a 4)).opaqueArgb
  | .argb8888 => argbOf (Mem.readLE m a 4)

/-- One channel of a blend at combined alpha `a` (R45). -/
def blendChannel (a src dst : Nat) : Nat := (src * a + dst * (255 - a) + 127) / 255

/-- The combined alpha (R45). -/
def combinedAlpha (opacity alpha : Nat) : Nat := (opacity * alpha + 127) / 255

/-- The blend of a source value over a pixel (R45). -/
def blend (opacity : Nat) (src : Argb) (dst : Rgb) : Rgb :=
  let a := combinedAlpha opacity src.a
  ⟨blendChannel a src.r dst.r, blendChannel a src.g dst.g, blendChannel a src.b dst.b⟩

/-- A pixel with its colours inverted (R55). -/
def Rgb.invert (c : Rgb) : Rgb := ⟨255 - c.r, 255 - c.g, 255 - c.b⟩

/-! ## Cells (R83 to R92) -/

/-- The scroll offset latched for a CELLS layer (R87). -/
def latchScroll (l : Layer) : Nat := l.cells.scroll % (l.cells.rows * 16)

/-- A cell record (Table 11-6). -/
structure CellRec where
  glyph : Nat
  palette : Nat
  invert : Bool
  blink : Bool
  deriving DecidableEq, Repr

/-- The cell record of map column `c` and row `m` (R83). -/
def readCell (mem : Mem) (l : Layer) (c m : Nat) : CellRec :=
  let v := Mem.readLE mem (l.cells.map + (m * l.cells.cols + c) * 4) 4
  { glyph := v % 1024, palette := v / 1024 % 16, invert := bitOf v 14, blink := bitOf v 15 }

/-- The colour index of glyph `g` at glyph row `y` and column `x` (R84). -/
def glyphIndex (mem : Mem) (l : Layer) (g y x : Nat) : Nat :=
  let b := Mem.readLE mem (l.cells.sheet + g * 128 + y * 8 + x / 2) 1
  if x % 2 = 0 then b % 16 else b / 16

/-- The palette entry `i` of palette `p` (R85). -/
def paletteEntry (mem : Mem) (l : Layer) (p i : Nat) : Argb :=
  argbOf (Mem.readLE mem (l.cells.palette + p * 64 + i * 4) 4)

/-- The cell lies in the focus of its layer (R89). -/
def inFocus (l : Layer) (c m : Nat) : Bool :=
  l.focusOn && decide (l.cells.col0 ≤ c) && decide (c ≤ l.cells.col1) && decide (l.cells.row0 ≤ m) &&
  decide (m ≤ l.cells.row1)

/-- The colour index drawn (R89, R91): 0 in a blanked cell, else the glyph's, inverted when exactly one of the INVERT
flag and the focus holds. -/
def drawnIndex (blanked : Bool) (inv focus : Bool) (i : Nat) : Nat :=
  if blanked then 0 else if inv != focus then 15 - i else i

/-- Layer pixel (i, j) of a CELLS layer (R92): none beyond the map (R88), else the value handed to the pipe and whether
the cell is clamped (R86). -/
def cellPixel (mem : Mem) (l : Layer) (scroll : Nat) (phaseOn : Bool) (i j : Nat) : Option (Argb × Bool) :=
  let c := i / 16
  if l.cells.cols ≤ c then none
  else
    let m := (j + scroll) / 16 % l.cells.rows
    let rec' := readCell mem l c m
    let clamped := decide (l.glyphs ≤ rec'.glyph)
    let blanked := rec'.blink && l.blinkOn && !phaseOn
    let g := glyphIndex mem l (if clamped then 0 else rec'.glyph) ((j + scroll) % 16) (i % 16)
    some (paletteEntry mem l rec'.palette (drawnIndex blanked rec'.invert (inFocus l c m) g), clamped)

/-! ## The camera picture (R50 to R52) -/

/-- The conversion of one camera pixel (R51); division rounds toward minus infinity. -/
def ycc (y cb cr : Nat) : Rgb :=
  let c : Int := (y : Int) - 16
  let d : Int := (cb : Int) - 128
  let e : Int := (cr : Int) - 128
  let ch := fun (v : Int) => (clampInt 0 255 ((v + 128) / 256)).toNat
  ⟨ch (298 * c + 409 * e), ch (298 * c - 100 * d - 208 * e), ch (298 * c + 516 * d)⟩

/-- Pixel (x, y) of the camera buffer at `a`, with lines of `cw` pixels (R51, Table 11-6). -/
def bufferPixel (mem : Mem) (a cw x y : Nat) : Rgb :=
  let b := a + y * cw * 2 + x / 2 * 4
  ycc (Mem.readLE mem (b + x % 2 * 2) 1) (Mem.readLE mem (b + 1) 1) (Mem.readLE mem (b + 3) 1)

/-- A colour from the low 24 bits of a word. -/
def wordRgb (w : Word) : Rgb := ⟨w.toNat / 65536 % 256, w.toNat / 256 % 256, w.toNat % 256⟩

/-- Pixel (px, py) of the camera picture by the view status of the set (R50, R52, R121). In LIVE without a buffer in
SHOWN the spec gives no content, and the pixel is free (Log 34). -/
def picturePixel (s : State) (v : Option View) (shown : Option Nat) (px py : Nat) : Rgb :=
  let c := s.settings.camera
  match v, shown with
  | some .live, some n =>
    bufferPixel s.mem (c.buffers.get n) c.width (if c.mirror then c.width - 1 - px else px) py
  | some .live, none => wordRgb (Config.unshownPixel px py)
  | some .lost, _ => (expand565 (Mem.readLE s.mem (c.fallback + py * c.width * 2 + px * 2) 2)).rgb
  | some .wait, _ => c.blank
  | none, _ => c.blank

/-! ## Guides (R138, R142) -/

/-- The squared distance of two points. -/
def dist2 (p q : Pt) : Int := (p.x - q.x) * (p.x - q.x) + (p.y - q.y) * (p.y - q.y)

/-- The pixel `p` lies within `w / 2` of the closed segment from `a` to `b`, measured exactly (R138). -/
def onSegment (w : Nat) (a b p : Pt) : Bool :=
  let dx := b.x - a.x
  let dy := b.y - a.y
  let len := dx * dx + dy * dy
  let t := (p.x - a.x) * dx + (p.y - a.y) * dy
  let cross := (p.x - a.x) * dy - (p.y - a.y) * dx
  let ww : Int := (w : Int) * w
  if t ≤ 0 then decide (4 * dist2 p a ≤ ww)
  else if len ≤ t then decide (4 * dist2 p b ≤ ww)
  else decide (4 * (cross * cross) ≤ ww * len)

/-- The guide colours by index (Table 8-2). -/
def guideColour (g : GuideSettings) : Nat → Rgb
  | 0 => g.colour0
  | 1 => g.colour1
  | _ => g.colour2

/-- One line painted over a pixel: segment j in the colour of mark j, later segments over earlier ones (R138). -/
def paintLine (g : GuideSettings) (p : Pt) : List Pt → List Nat → Rgb → Rgb
  | a :: b :: t, k :: ks, base =>
    paintLine g p (b :: t) ks (if onSegment g.lineWidth a b p then guideColour g k else base)
  | _, _, base => base

/-- The guide lines and the obstacle marker over a pixel of the camera picture (R138, R142). -/
def paintGuides (s : State) (v : Option View) (r : GuideRec) (px py : Nat) (base : Rgb) : Rgb :=
  match v, s.guide.state, s.guide.table with
  | some .live, .inUse, some t =>
    let g := s.settings.guide
    let p : Pt := ⟨px, py⟩
    let c := paintLine g p t.statRight t.colours (paintLine g p t.statLeft t.colours base)
    let c := if r.dynamicShown then paintLine g p r.dynRight t.colours (paintLine g p r.dynLeft t.colours c) else c
    if r.markerShown && onSegment (2 * g.lineWidth) r.markerLeft r.markerRight p then
      if r.zone = .stop then g.stop else g.caution
    else c
  | _, _, _ => base

/-! ## Layers (R42, R43, R46 to R50, R53, R56) -/

/-- The layer pixel that lies at screen column `col` and row `row` (R43). -/
def layerPixel (x y : Int) (w h col row : Nat) : Option (Nat × Nat) :=
  let i : Int := (col : Int) - x
  let j : Int := (row : Int) - y
  if 0 ≤ i ∧ i < w ∧ 0 ≤ j ∧ j < h then some (i.toNat, j.toNat) else none

/-- The layer is drawn as a restricted cover in the rest of the refresh (R53, R54). -/
def Refresh.covers (r : Refresh) (l : SetLayer) : Bool := l.layer.restricted && r.cover

/-- The layer's fetch-failed mark is set (R56). -/
def Refresh.layerFailed (r : Refresh) (l : SetLayer) : Bool := r.failed.contains (.layer l.idx)

/-- The source value of layer pixel (i, j) (R46 to R50, R92); none where the layer leaves the pixel beneath. -/
def sourcePixel (s : State) (set : CompSet) (l : SetLayer) (i j : Nat) : Option Argb :=
  match l.layer.kind with
  | .fill => some l.layer.fill
  | .picture =>
    match l.layer.format with
    | some f => some (readPixel s.mem f (l.layer.surface + j * l.layer.stride + i * f.bytes))
    | none => none
  | .film =>
    match l.frame with
    | some fr =>
      match fr.format with
      | some f =>
        if i < fr.width ∧ j < fr.height then some (readPixel s.mem f (fr.surface + j * fr.stride + i * f.bytes))
        else some l.layer.fill
      | none => some l.layer.fill
    | none => some l.layer.fill
  | .cells => (cellPixel s.mem l.layer l.scroll set.blinkOn i j).map (·.1)
  | .camera =>
    if i < s.settings.camera.width ∧ j < s.settings.camera.height then
      some (paintGuides s set.view set.guide i j (picturePixel s set.view set.shown i j)).opaqueArgb
    else some l.layer.fill
  | .unknown _ => none

/-- One layer over the pixel at (col, row) (R42, R53, R56). A CAMERA layer whose fetch failed is a FILL layer, without guide
lines (Log 44). -/
def drawLayer (s : State) (r : Refresh) (col row : Nat) (dst : Rgb) (l : SetLayer) : Rgb :=
  if l.shed then dst
  else
    match layerPixel l.layer.x l.layer.y l.layer.w l.layer.h col row with
    | none => dst
    | some (i, j) =>
      if r.covers l then l.layer.fill.rgb
      else if r.layerFailed l then blend l.layer.opacity l.layer.fill dst
      else
        match sourcePixel s r.set l i j with
        | some src => blend l.layer.opacity src dst
        | none => dst

/-- The takeover cell layer's value at (col, row), when it is drawn (R95). -/
def takeoverCell (s : State) (r : Refresh) (col row : Nat) : Option (Layer × Argb × Bool) :=
  match s.settings.cellLayer with
  | none => none
  | some l =>
    if r.failed.contains .takeoverCells then none
    else
      match layerPixel l.x l.y l.w l.h col row with
      | none => none
      | some (i, j) => (cellPixel s.mem l r.set.cellScroll r.set.blinkOn i j).map (fun v => (l, v.1, v.2))

/-- A pixel of the takeover picture (R121). -/
def takeoverPixel (s : State) (r : Refresh) (col row : Nat) : Rgb :=
  let c := s.settings.camera
  let base :=
    match layerPixel c.originX c.originY c.width c.height col row with
    | none => c.blank
    | some (px, py) =>
      let p := if r.failed.contains .takeoverCamera then c.blank else picturePixel s r.set.view r.set.shown px py
      paintGuides s r.set.view r.set.guide px py p
  match takeoverCell s r col row with
  | some (l, v, _) => blend l.opacity v base
  | none => base

/-- The pixel at (col, row) of a refresh (R42, R55, R121). -/
def composePixel (s : State) (r : Refresh) (col row : Nat) : Rgb :=
  if r.set.takeover then takeoverPixel s r col row
  else
    match r.set.mode with
    | .blank => r.set.background
    | .dark => r.set.background
    | .normal => r.set.layers.foldl (drawLayer s r col row) r.set.background
    | .invert => (r.set.layers.foldl (drawLayer s r col row) r.set.background).invert

/-- The layer draws its cells at (col, row), and the cell there is clamped (R86). -/
def clampedAt (s : State) (r : Refresh) (col row : Nat) (l : SetLayer) : Bool :=
  decide (l.layer.kind = .cells) && !l.shed && !r.covers l && !r.layerFailed l &&
  match layerPixel l.layer.x l.layer.y l.layer.w l.layer.h col row with
  | none => false
  | some (i, j) =>
    match cellPixel s.mem l.layer l.scroll r.set.blinkOn i j with
    | some (_, k) => k
    | none => false

/-- The number of the takeover cell layer among the layers already counted for R86. -/
def takeoverIdx : Nat := 6

/-- The layers that draw a pixel of a clamped cell at (col, row) (R86). -/
def clampHits (s : State) (r : Refresh) (col row : Nat) : List Nat :=
  if r.set.takeover then
    match takeoverCell s r col row with
    | some (_, _, true) => [takeoverIdx]
    | _ => []
  else
    match r.set.mode with
    | .blank => []
    | .dark => []
    | .normal => (r.set.layers.filter (clampedAt s r col row)).map (·.idx)
    | .invert => (r.set.layers.filter (clampedAt s r col row)).map (·.idx)

/-! ## Sending (R41) -/

/-- A counter counted `n` times. -/
def bumpBy : Nat → Nat → Nat
  | 0, c => c
  | n + 1, c => bumpBy n (bump c)

/-- The refresh in progress on screen `i` sends its next pixel, if its panel is SENDING and one is left (R41, R86). -/
def State.sendPixel (s : State) (i : ScreenId) : State :=
  let sc := s.screens.get i
  let st := s.screenSettings i
  match sc.refresh with
  | none => s
  | some r =>
    if r.set.panel = .sending ∧ r.pos < st.width * st.height then
      let col := r.pos % st.width
      let row := r.pos / st.width
      let hits := (clampHits s r col row).filter (fun n => !r.clamped.contains n)
      s.modScreen i (fun sc =>
        { sc with pixelOut := some (composePixel s r col row), glyphClamps := bumpBy hits.length sc.glyphClamps,
                  refresh := some { r with pos := r.pos + 1, clamped := hits ++ r.clamped } })
    else s

/-- Send `n` pixels. -/
def State.sendPixels (s : State) (i : ScreenId) : Nat → State
  | 0 => s
  | n + 1 => (s.sendPixel i).sendPixels i n

/-- The pixels the refresh in progress on screen `i` has left to send. -/
def State.pixelsLeft (s : State) (i : ScreenId) : Nat :=
  match (s.screens.get i).refresh with
  | none => 0
  | some r =>
    if r.set.panel = .sending then (s.screenSettings i).width * (s.screenSettings i).height - r.pos else 0

/-- The refresh in progress on screen `i` sends the rest of its pixels (R41). -/
def State.finishRefresh (s : State) (i : ScreenId) : State := s.sendPixels i (s.pixelsLeft i)

/-! ## FETCH_ERROR (R56) -/

/-- Some pixel of the rectangle lies on the active area (R43). -/
def onScreen (sc : ScreenSettings) (x y : Int) (w h : Nat) : Bool := decide (visibleArea sc x y w h ≠ 0)

/-- Some pixel of a CELLS rectangle on the active area lies within the map's columns (R43, R88). -/
def cellsOnScreen (sc : ScreenSettings) (l : Layer) : Bool := onScreen sc l.x l.y (min l.w (l.cells.cols * 16)) l.h

/-- The camera picture is read from memory: from the buffer in SHOWN while LIVE, from the fallback picture in LOST
(R50). -/
def CompSet.readsCamera (set : CompSet) : Bool :=
  (decide (set.view = some .live) && set.shown.isSome) || decide (set.view = some .lost)

/-- A layer reads from memory: some pixel of it on the active area takes its value from there (R43, R46 to R50, R88). -/
def SetLayer.reads (l : SetLayer) (st : Settings) (sc : ScreenSettings) (set : CompSet) : Bool :=
  let y := l.layer
  match y.kind with
  | .fill => false
  | .picture => onScreen sc y.x y.y y.w y.h
  | .film =>
    match l.frame with
    | some f => onScreen sc y.x y.y (min y.w f.width) (min y.h f.height)
    | none => false
  | .cells => cellsOnScreen sc y
  | .camera => set.readsCamera && onScreen sc y.x y.y (min y.w st.camera.width) (min y.h st.camera.height)
  | .unknown _ => false

/-- The refresh reads from memory for an element: a drawn layer that is not a cover and reads, or an element of the
takeover picture that does. -/
def Refresh.reads (r : Refresh) (st : Settings) (sc : ScreenSettings) : FetchElement → Bool
  | .layer n =>
    !r.set.takeover && (decide (r.set.mode = .normal) || decide (r.set.mode = .invert)) &&
    r.set.layers.any (fun l => l.idx == n && !l.shed && !r.covers l && l.reads st sc r.set)
  | .takeoverCamera =>
    r.set.takeover && r.set.readsCamera &&
    onScreen sc st.camera.originX st.camera.originY st.camera.width st.camera.height
  | .takeoverCells => r.set.takeover && match st.cellLayer with | some l => cellsOnScreen sc l | none => false

/-- FETCH_ERROR (R56): the element's fetch-failed mark is set for the rest of the refresh and counted once (Log 27). -/
def execFetchError (i : ScreenId) (x : FetchElement) (s : State) : Host.Outcome State Fault Refusal :=
  match (s.screens.get i).refresh with
  | none => .next s
  | some r =>
    if r.set.panel = .sending ∧ r.reads s.settings (s.screenSettings i) x ∧ ¬ r.failed.contains x then
      .next (s.modScreen i (fun sc =>
        { sc with fetchErrors := bump sc.fetchErrors, refresh := some { r with failed := x :: r.failed } }))
    else .next s

end Sys2Proof.Machine
end

