-- ==== Sys2Proof/Machine/Film.lean ====
section
/-! DEFINITION. The film pacer (Chapter 4): the control fields, the media clock, frame selection and the work of each
stream state at a pacing refresh. -/

namespace Sys2Proof.Machine

/-! ## Control fields (R58, R70) -/

/-- What one read of the control fields gave: the codes and the nudge word. -/
structure Controls where
  req : Option Req
  pacing : Option ScreenId
  interval : Nat
  amount : Int
  serial : Word
  deriving DecidableEq, Repr

/-- The control fields of the stream record at `r` (Table 11-3). -/
def readControls (m : Mem) (r : Nat) : Controls :=
  { req := reqOf (Mem.readLE m (r + 12) 1), pacing := screenOf (Mem.readLE m (r + 13) 1),
    interval := Mem.readLE m (r + 14) 2, amount := toSigned 32 (Mem.readLE m (r + 16) 4),
    serial := BitVec.ofNat 32 (Mem.readLE m (r + 20) 4) }

/-- A count that grows by one when `c` holds. -/
def bumpIf (c : Bool) (n : Nat) : Nat := if c then bump n else n

/-- Items in use follow legal fields; each illegal one is counted (R58). `t` is the time of the refresh. -/
def Stream.takeControls (x : Stream) (c : Controls) (t : Nat) : Stream :=
  let okInterval := inRange c.interval 1000 9000
  { x with
    req := c.req.getD x.req
    pacing := c.pacing.getD x.pacing
    interval := if okInterval then c.interval else x.interval
    recErrors := bumpIf (!okInterval) (bumpIf c.pacing.isNone (bumpIf c.req.isNone x.recErrors))
    pacedAfter := if c.pacing.getD x.pacing = x.pacing then x.pacedAfter else some t }

/-- The nudge comparison (R58, R70). -/
def Stream.takeNudge (x : Stream) (c : Controls) : Stream :=
  if c.serial = x.nudgeSerial then x
  else
    let bad := decide (c.amount < -9000) || decide (9000 < c.amount)
    { x with
      nudgeSerial := c.serial
      recErrors := bumpIf bad x.recErrors
      balance := if x.state = .idle then x.balance
        else clampInt (-18000) 18000 (x.balance + clampInt (-9000) 9000 c.amount) }

/-! ## The media clock (R69, R71) -/

/-- Fine insertion for one refresh of period `p` (R69). -/
def Stream.fineInsert (x : Stream) (p : Nat) : Stream :=
  let f := p % 16
  let extra := if x.fine * f / 16 < (x.fine + 1) * f / 16 then 1 else 0
  { x with clock := x.clock + BitVec.ofNat 32 (p / 16 + extra), fine := (x.fine + 1) % 16 }

/-- The signed age of the shown frame, M − pts; 0 without one. -/
def Stream.age (x : Stream) : Int :=
  match x.shown with
  | some f => sdiff x.clock f.pts
  | none => 0

/-- The balance step (R71): positive steps add to the clock, negative ones never take it below the shown pts. A
clock that stands before the shown pts gives a negative step of 0 (Log 42). -/
def Stream.nudgeStep (x : Stream) (rate : Nat) : Stream :=
  if 0 < x.balance then
    let n := min x.balance rate
    { x with clock := x.clock + BitVec.ofInt 32 n, balance := x.balance - n }
  else if x.balance < 0 then
    let n := min (min (-x.balance) rate) (max 0 x.age)
    { x with clock := x.clock - BitVec.ofInt 32 n, balance := x.balance + n }
  else x

/-! ## Frames (R60, R61, R72) -/

/-- The order check against the predecessor's pts (R61). -/
def orderOk (pred : Option Word) (pts : Word) : Bool :=
  match pred with
  | none => true
  | some p => decide (0 < sdiff pts p)

/-- A frame is valid (R60). -/
def Frame.valid (f : Frame) (st : Settings) (pred : Option Word) : Bool :=
  inRange f.width 16 1920 && inRange f.height 16 1200 && surfaceOk st f.format f.surface f.stride f.width f.height &&
  (f.restart || orderOk pred f.pts)

/-- How a consumed frame is dealt with. -/
inductive Deal where
  | reject
  | candidate
  | restart
  deriving DecidableEq, Repr

/-- A consumed frame with its deal. -/
abbrev Dealt := Handed Frame × Deal

/-- The frames a PLAYING stream consumes (R72), `pred` being the predecessor's pts and `m` the clock. -/
def select (st : Settings) (m : Word) : List (Handed Frame) → Option Word → List Dealt
  | [], _ => []
  | h :: t, pred =>
    if !h.body.valid st pred then (h, .reject) :: select st m t pred
    else if h.body.restart then [(h, .restart)]
    else if 0 < sdiff h.body.pts m then []
    else (h, .candidate) :: select st m t (some h.body.pts)

/-- The frames a PRIMING stream consumes (R65): invalid ones, then the first valid one. -/
def prime (st : Settings) : List (Handed Frame) → List Dealt
  | [] => []
  | h :: t => if !h.body.valid st none then (h, .reject) :: prime st t else [(h, .restart)]

/-- The frame taken among the consumed: the last one not rejected. -/
def takenOf : List Dealt → Option (Frame × Deal)
  | [] => none
  | (h, d) :: t =>
    match takenOf t with
    | some x => some x
    | none => if d = .reject then none else some (h.body, d)

/-- The first-show lateness (R62): 0 for a frame that sets the clock. The one due candidate with a negative difference,
M − pts = −2^31, which is not later than M by R72, gets 0 (Log 47). -/
def lateness (m : Word) (f : Frame) (d : Deal) : Nat :=
  match d with
  | .candidate => min (sdiff m f.pts).toNat 65535
  | .restart => 0
  | .reject => 0

/-- The hold record of a consumed frame (R60, R62, R72). -/
def frameHold (x : StreamId) (m : Word) (taken : Option (Frame × Deal)) (hd : Dealt) : Hold :=
  let r := Hold.fresh (.film x) hd.1.addr
  match hd.2, taken with
  | .reject, _ => { r with verdict := some .rejected }
  | _, some (f, d) =>
    if hd.1.addr = f.addr then { r with client := true, used := true, late := lateness m f d }
    else { r with verdict := some .skipped }
  | _, none => { r with verdict := some .skipped }

/-- The stream's shown frame loses its client hold. -/
def State.endShown (s : State) (x : StreamId) : State :=
  match (s.streams.get x).shown with
  | some f => s.endClient (.film x) f.addr
  | none => s

/-- The consumed frames leave the chain behind, and the taken one becomes the shown frame (R62, R65, R72, R74). -/
def State.consumeFrames (s : State) (x : StreamId) (ds : List Dealt) : State :=
  let m := (s.streams.get x).clock
  let taken := takenOf ds
  let s := if taken.isSome then s.endShown x else s
  let s := s.consume (.film x) (ds.map (frameHold x m taken))
  match taken with
  | none => s
  | some (f, d) =>
    s.modStream x (fun y =>
      let y := { y with shown := some f, lastPts := some f.pts }
      if d = .restart then { y with clock := f.pts, fine := 0 } else y)

/-! ## Stream states (R63 to R68, R75 to R77) -/

/-- A stream without a frame: no shown frame, clock, fine counter and balance 0, no last valid pts. -/
def Stream.clear (x : Stream) (st : StreamState) : Stream :=
  { x with state := st, shown := none, clock := 0, fine := 0, balance := 0, lastPts := none }

/-- STOP (R64): the film chain is released and the stream becomes IDLE. -/
def State.stopStream (s : State) (x : StreamId) : State :=
  ((s.abandon (.film x)).endShown x).modStream x (fun y => y.clear .idle)

/-- A changed serial (R66): the stream returns to PRIMING, and STREAM is raised when it was in another state, also where
the same refresh then takes a frame and brings the old state back (R80). -/
def State.restartStream (s : State) (x : StreamId) : State :=
  ((s.endShown x).modStream x (fun y => y.clear .priming)).raiseIf
    (decide ((s.streams.get x).state ≠ .priming)) .stream

/-- The state in which a stream does its work, by the requested state in use (R67). -/
def Stream.workState (x : Stream) : StreamState :=
  match x.state, x.req with
  | .playing, .pause => .paused
  | .paused, .run => .playing
  | .starved, .pause => .paused
  | st, _ => st

/-- A walk was dry (R75). -/
def dryWalk (w : Option WalkEnd) (handed dealt : Nat) : Bool :=
  match w with
  | some .endOfChain => handed == dealt
  | _ => false

/-- A walk was stopped by the limit of four links while frames may still be due (R73). -/
def lateWalk (ds : List Dealt) : Bool :=
  match ds with
  | [_, _, _, (h, .candidate)] => h.link.isSome
  | _ => false

/-- The tests that end PLAYING (R75, R77). -/
def Stream.endTests (x : Stream) (dry : Bool) : Stream :=
  match x.shown with
  | none => x
  | some f =>
    if f.last ∧ (x.interval : Int) ≤ x.age then { x with state := .ended }
    else if dry ∧ 2 * (x.interval : Int) < x.age then { x with state := .starved, starves := bump x.starves }
    else x

/-- The work of PLAYING (R69 to R77) at a refresh of period `p`, with what the walk handed and how it ended. -/
def State.workPlaying (s : State) (x : StreamId) (p : Nat) (hs : List (Handed Frame)) (w : Option WalkEnd) : State :=
  let s := s.modStream x (fun y => (({ y with state := .playing } : Stream).fineInsert p).nudgeStep s.settings.nudgeRate)
  let y := s.streams.get x
  let ds := select s.settings y.clock hs y.lastPts
  (s.consumeFrames x ds).modStream x (fun y =>
    ({ y with late := bumpIf (lateWalk ds) y.late } : Stream).endTests (dryWalk w hs.length ds.length))

/-- The work of PRIMING (R65). -/
def State.workPriming (s : State) (x : StreamId) (hs : List (Handed Frame)) : State :=
  let ds := prime s.settings hs
  let s := s.consumeFrames x ds
  if (takenOf ds).isSome then
    s.modStream x (fun y => { y with state := if y.req = .pause then .paused else .playing })
  else s

/-- The stream's state alone changes. -/
def State.setStreamState (s : State) (x : StreamId) (st : StreamState) : State :=
  s.modStream x (fun y => { y with state := st })

/-- The work of the stream's state (R63, step 6) with what the walk handed and how it ended: PAUSED and ENDED consume
nothing (R67, R77), and an entry reached returns STARVED to PLAYING (R76). -/
def State.streamWork (s : State) (x : StreamId) (p : Nat) (hs : List (Handed Frame)) (w : Option WalkEnd) : State :=
  match (s.streams.get x).workState with
  | .idle => s
  | .priming => s.workPriming x hs
  | .playing => s.workPlaying x p hs w
  | .paused => s.setStreamState x .paused
  | .starved => if hs.isEmpty then s else s.setStreamState x .playing
  | .ended => s
  | .faulted => s

/-- The serial check of a stream that is not IDLE, with the restart of the stream at a changed serial (R6, R66). -/
def State.filmSerial (s : State) (x : StreamId) (e : LinkErrs) : Serial × State :=
  let q := s.checkSerial (.film x) e
  (q.1, if q.1 = .changed then q.2.restartStream x else q.2)

/-- The walk of a pacing refresh is made: the serial was read (Log 20), and neither the chain nor the stream is FAULTED
(R17, R68). -/
def State.filmWalks (s : State) (x : StreamId) (ser : Serial) : Bool :=
  decide (ser ≠ .failed) && decide ((s.chain (.film x)).state ≠ .faulted) &&
  decide ((s.streams.get x).state ≠ .faulted)

/-- The walk of a pacing refresh; without one nothing is handed. -/
def State.filmPoll (s : State) (x : StreamId) (ser : Serial) (e : LinkErrs) :
    List (Handed Frame) × Option WalkEnd × State :=
  if s.filmWalks x ser then s.pollWalk readFrameEntry (.film x) e else ([], none, s)

/-- A stream whose film chain is FAULTED enters FAULTED when it has a shown frame (R68), an ENDED one too, whose ways out R77
names without this one (Log 51). -/
def State.faultStream (s : State) (x : StreamId) : State :=
  if (s.chain (.film x)).state = .faulted ∧ (s.streams.get x).shown.isSome then
    s.modStream x (fun y => { y with state := .faulted })
  else s

/-- Step 7 of R63: the shown frame's count of refreshes shown (R62). -/
def State.countShown (s : State) (x : StreamId) : State :=
  match (s.streams.get x).shown with
  | some f => s.modHold (.film x) f.addr (fun h => { h with count := bump h.count })
  | none => s

/-- STREAM is raised when the stream's state differs from `was` (R80). -/
def State.raiseStream (s : State) (x : StreamId) (was : StreamState) : State :=
  s.raiseIf (decide ((s.streams.get x).state ≠ was)) .stream

/-- Steps 4 to 7 of R63 for a stream that is not IDLE, with the control fields `c`. A chain found FAULTED is not walked
and takes the stream to FAULTED at once, before any advance (R68, Log 19). The walk is made before the nudge and the
advance, on which it does not depend. -/
def State.paceActive (s : State) (x : StreamId) (p : Nat) (c : Controls) (e : LinkErrs) : State :=
  let q := s.filmSerial x e
  let found := decide ((q.2.chain (.film x)).state = .faulted)
  let r := q.2.filmPoll x q.1 e
  let s := r.2.2.modStream x (fun y => y.takeNudge c)
  let s := if found then s else s.streamWork x p r.1 r.2.1
  (s.faultStream x).countShown x

/-- The work of a pacing refresh after its control fields are read (R63, steps 2 to 7). -/
def State.paceWith (s : State) (x : StreamId) (p : Nat) (c : Controls) (e : LinkErrs) : State :=
  let y := s.streams.get x
  if y.req = .stop then
    (if y.state = .idle then s else s.stopStream x).modStream x (fun y => y.takeNudge c)
  else
    let s := if y.state = .idle then s.modStream x (fun y => y.clear .priming) else s
    s.paceActive x p c e

/-- A pacing refresh of stream `x` at time `t` on a screen of period `p` (R63). A read error on the control fields ends
it at once, and none of the fields goes into use, the ones that were read neither (R58, Log 35); the shown frame's count of
refreshes shown does not grow at it (R62, Log 46). -/
def State.pace (s : State) (x : StreamId) (t p : Nat) (e : LinkErrs) : State :=
  let r := s.rootAddr (.film x)
  if touches e.reads (r + 12) 12 then s.rootReadError (.film x)
  else
    let c := readControls s.mem r
    let was := (s.streams.get x).state
    ((s.modStream x (fun y => y.takeControls c t)).paceWith x p c e).raiseStream x was

/-- The pacing refresh of stream `x` is due at a frame start of screen `i` at time `t` (R59, Log 10). -/
def Stream.pacedBy (y : Stream) (i : ScreenId) (t : Nat) : Bool :=
  decide (y.pacing = i) &&
  match y.pacedAfter with
  | none => true
  | some u => decide (u < t)

/-- The pacing refreshes of the streams screen `i` paces, at its frame start at time `t` (R59); where it paces both, stream A's
is made before stream B's (Log 54). -/
def State.paceStreams (s : State) (i : ScreenId) (t : Nat) (e : LinkErrs) : State :=
  let p := (s.screenSettings i).period
  let s := if (s.streams.get .a).pacedBy i t then s.pace .a t p e else s
  if (s.streams.get .b).pacedBy i t then s.pace .b t p e else s

end Sys2Proof.Machine
end

