-- ==== Sys2Proof/Machine/Frame.lean ====
section
/-! DEFINITION. Frame starts (R27, R40) and the completion of a screen's last refresh (R21, R41): mode, panel and duty,
the composition set, and the screen's references (R15). -/

namespace Sys2Proof.Machine

/-! ## Mode, panel and duty (R28 to R31, R120) -/

/-- The mode in effect: the current plan's, DARK without one. -/
def Screen.planMode (sc : Screen) : Mode :=
  match sc.plan with
  | some p => p.mode
  | none => .dark

/-- The panel state of a refresh (R29). -/
def panelFor (takeover : Bool) (m : Mode) : Panel := if takeover then .sending else if m = .dark then .idle else .sending

/-- The screen shows the takeover picture in a refresh that begins now (R120). -/
def State.takeoverOn (s : State) (i : ScreenId) : Bool := decide (i = .centre) && decide (s.takeover.state ≠ .normal)

/-- Mode, panel and duty of the new refresh (R27, step 2). -/
def State.settleMode (s : State) (i : ScreenId) : State :=
  let t := s.takeoverOn i
  s.modScreen i (fun sc =>
    let sc := { sc with mode := sc.planMode, panel := panelFor t sc.planMode, showsTakeover := t }
    { sc with duty := sc.dutyFor s.settings s.vehicle.dimInUse })

/-! ## The composition set (R40) -/

/-- The refresh draws the host's layers: NORMAL or INVERT, outside takeover. -/
def Screen.drawsLayers (sc : Screen) : Bool :=
  !sc.showsTakeover && (decide (sc.mode = .normal) || decide (sc.mode = .invert))

/-- The layer is drawn as a restricted cover from the frame start on (R53). -/
def State.coversLayer (s : State) (i : ScreenId) (l : Layer) : Bool :=
  decide (i = .centre) && l.restricted && s.covered

/-- A layer is drawn from its source: neither shed nor covered (R42, R53). -/
def State.drawsSource (s : State) (i : ScreenId) (l : PlanLayer) : Bool :=
  !(s.screens.get i).adm.mask.getLsbD l.idx && !s.coversLayer i l.layer

/-- The frame a layer composes from (R40, R48, R49): the shown frame of its stream for a FILM layer drawn from its
source, else none. -/
def State.layerFrame (s : State) (i : ScreenId) (l : PlanLayer) : Option Frame :=
  if (s.screens.get i).drawsLayers ∧ s.drawsSource i l ∧ l.layer.kind = .film then
    match l.layer.stream with
    | some x => (s.streams.get x).shown
    | none => none
  else none

/-- A layer of the composition set. -/
def State.setLayer (s : State) (i : ScreenId) (l : PlanLayer) : SetLayer :=
  { idx := l.idx, layer := l.layer, shed := (s.screens.get i).adm.mask.getLsbD l.idx, frame := s.layerFrame i l,
    scroll := if l.layer.kind = .cells then latchScroll l.layer else 0 }

/-- The layers of the current plan. -/
def Screen.planLayers (sc : Screen) : List PlanLayer :=
  match sc.plan with
  | some p => p.layers
  | none => []

/-- The composition set of the refresh that begins (R40), with the blink phase and the scroll offsets latched (R87,
R91, R95). -/
def State.compSet (s : State) (i : ScreenId) : CompSet :=
  let sc := s.screens.get i
  { mode := sc.mode, panel := sc.panel, background := (s.screenSettings i).background,
    layers := sc.planLayers.map (s.setLayer i), takeover := sc.showsTakeover, view := s.takeover.view,
    shown := bufferOf s.camera.roles .shown, guide := s.guide.set, blinkOn := s.blinkOn,
    cellScroll := match s.settings.cellLayer with | some l => latchScroll l | none => 0 }

/-- The new refresh, with its cover mark from the motion state (R53), clear where it shows the takeover picture
(Log 59). -/
def State.newRefresh (s : State) (i : ScreenId) : Refresh :=
  { set := s.compSet i, pos := 0, failed := [], clamped := [],
    cover := decide (i = .centre) && !(s.screens.get i).showsTakeover && s.covered, final := false }

/-! ## References (R15) -/

/-- The new refresh composes from a held entry: the current plan, or the frame of a drawn FILM layer. -/
def composesFrom (i : ScreenId) (plan : Option Plan) (set : CompSet) (h : Hold) : Bool :=
  match h.chain with
  | .plan j => decide (j = i) && (match plan with | some p => decide (p.addr = h.addr) | none => false)
  | .film x => set.layers.any (fun l =>
      decide (l.layer.stream = some x) && (match l.frame with | some f => decide (f.addr = h.addr) | none => false))
  | .chime => false

/-- Screen `i`'s references become those `f` tells; entries whose last hold ends retire (R15). -/
def State.setRefs (s : State) (i : ScreenId) (f : Hold → Bool) : State :=
  let changed := s.holds.filter (fun h => h.refs.get i != f h)
  let s := { s with holds := s.holds.map (fun h => { h with refs := h.refs.set i (f h) }) }
  changed.foldl (fun s h => s.settle h.chain h.addr) s

/-- The current plan's count of refreshes shown (R27): not while the takeover picture is shown. -/
def State.countPlan (s : State) (i : ScreenId) : State :=
  let sc := s.screens.get i
  match sc.plan with
  | some p => if sc.showsTakeover then s else s.modHold (.plan i) p.addr (fun h => { h with count := bump h.count })
  | none => s

/-! ## The camera at a centre frame start (R127, R136, R141) -/

/-- The new centre refresh is a camera refresh (R127). -/
def State.cameraRefresh (s : State) : Bool :=
  let sc := s.screens.centre
  sc.showsTakeover || (sc.drawsLayers &&
    sc.planLayers.any (fun l => decide (l.layer.kind = .camera) && s.drawsSource .centre l))

/-- The capture unit's and the guide engine's acts at a centre frame start. -/
def State.cameraWork (s : State) : State :=
  let c := s.cameraRefresh
  let s := s.rotateBuffers c
  if c && decide (s.takeover.view = some .live) then { s with guide := s.guide.interpolate.placeMarker } else s

/-- A step of the centre screen only. -/
def State.atCentre (s : State) (i : ScreenId) (f : State → State) : State :=
  match i with
  | .centre => f s
  | .left => s
  | .right => s

/-! ## FRAME_START and REFRESH_COMPLETED -/

/-- The new refresh begins: its set, the references and the plan's count, and the time of the next frame start. -/
def State.beginRefresh (s : State) (i : ScreenId) : State :=
  let r := s.newRefresh i
  let s := s.countPlan i
  let s := s.modScreen i (fun sc =>
    { sc with refresh := some r, nextStart := sc.nextStart + (s.screenSettings i).period })
  s.setRefs i (composesFrom i (s.screens.get i).plan r.set)

/-- The work of a frame start of screen `i` in its order (R27, R40, R122, R127). -/
def State.frameStart (s : State) (i : ScreenId) (e : LinkErrs) : State :=
  let t := (s.screens.get i).nextStart
  let s := (s.finishRefresh i).planAdvance i e
  let s := s.atCentre i State.judgeCapture
  let s := (s.settleMode i).admission i
  let s := s.paceStreams i t e
  (s.atCentre i State.cameraWork).beginRefresh i

/-- FRAME_START (R27): in RUN with the screen's timing generator running. -/
def execFrameStart (i : ScreenId) (e : LinkErrs) (s : State) : Host.Outcome State Fault Refusal :=
  if s.runState = .run ∧ (s.screens.get i).genOn then .next (s.frameStart i e) else .next s

/-- The last refresh of screen `i` has been sent (R21, R41): the pipe holds none, the panel goes IDLE and the backlight
inactive; a generator started again meanwhile runs on (Log 23). The centre's SHOWN buffer becomes FREE (R123). -/
def State.endRefresh (s : State) (i : ScreenId) : State :=
  let s := s.finishRefresh i
  let s := s.modScreen i (fun sc => { sc.stopped with genOn := decide (s.runState = .run) })
  s.atCentre i (fun s => s.modCamera (fun c => { c with roles := moveRole c.roles .shown .free }))

/-- REFRESH_COMPLETED (R41): the refresh in progress is the screen's last. -/
def execRefreshCompleted (i : ScreenId) (s : State) : Host.Outcome State Fault Refusal :=
  match (s.screens.get i).refresh with
  | none => .next s
  | some r => if r.final then .next (s.endRefresh i) else .next s

end Sys2Proof.Machine
end

