-- ==== Sys2Proof/Machine/Sound.lean ====
section
/-! DEFINITION. Synthesis (R159): waves, envelopes, notes and voices, one sample event at a time. -/

namespace Sys2Proof.Machine

/-- The phase increment of a frequency: round(f × 2^32 / 48,000) (R159, step 1). -/
def phaseStep (f : Nat) : Nat := (f * 2 ^ 33 + 48000) / 96000

/-- The wave value of a phase (R159, step 2); a SQUARE duty of 0 is read as 128. -/
def waveValue (t : Tone) (phase : Word) : Int :=
  match t.wave with
  | .square => if phase.toNat / 2 ^ 24 < (if t.duty = 0 then 128 else t.duty) then 32767 else -32768
  | .triangle =>
    let q : Nat := phase.toNat / 2 ^ 16
    if q < 32768 then 2 * (q : Int) - 32768 else 98303 - 2 * (q : Int)

/-- One sample of a tone at an envelope value (R159, steps 4 and 5). -/
def toneSample (t : Tone) (phase : Word) (e : Nat) : Int :=
  waveValue t phase * ((t.level * 96 * e / 4096 : Nat) : Int) / 32768

/-- The phase after a sample. -/
def nextPhase (t : Tone) (phase : Word) : Word := phase + BitVec.ofNat 32 (phaseStep t.freq)

/-- The sample events of a stage; none for the endless hold. -/
def Seg.len? : Seg → Option Nat
  | .attack _ n => some n
  | .hold n => some n
  | .sustain => none
  | .release _ n => some n
  | .silence n => some n

/-- The envelope at the `k`-th sample of a stage, `k` counting from 1 (R159, step 3). -/
def Seg.env : Seg → Nat → Nat
  | .attack e0 n, k => e0 + (4096 - e0) * k / n
  | .hold _, _ => 4096
  | .sustain, _ => 4096
  | .release e0 n, k => e0 * (n - k) / n
  | .silence _, _ => 0

/-- A stage that gives no sample of its note. -/
def Seg.isSilence : Seg → Bool
  | .silence _ => true
  | .attack _ _ => false
  | .hold _ => false
  | .sustain => false
  | .release _ _ => false

/-- Stages of no length are left out. -/
def dropEmpty (l : List Seg) : List Seg := l.filter (fun g => g.len? != some 0)

/-- The stages of a pattern's note (R153): 48 sample events to the millisecond; a rest is silent for its hold and its
gap, its attack and release unused. A release starts from 4096, after an attack and a hold of no length too (Log 48). -/
def noteSegs (n : PatternNote) : List Seg :=
  dropEmpty (if n.freq = 0 then [.silence (48 * n.hold), .silence (48 * n.gap)]
    else [.attack 0 (48 * n.attack), .hold (48 * n.hold), .release 4096 (48 * n.release), .silence (48 * n.gap)])

/-- A note of a pattern at its first sample event: phase 0 (R159). -/
def startNote (n : PatternNote) : Note :=
  { tone := { freq := n.freq, wave := n.wave, duty := n.duty, level := n.level }, phase := 0, segs := noteSegs n,
    pos := 0, env := 0 }

/-- The first of the notes, numbered from `i`, that lasts at least one sample event. -/
def firstNote : Pattern → Nat → Option (Nat × Note)
  | [], _ => none
  | n :: t, i => if (noteSegs n).isEmpty then firstNote t (i + 1) else some (i, startNote n)

/-- A play whose notes all last 0 sample events counts as one sample event of silence (R153). -/
def silentNote : Note :=
  { tone := ⟨0, .square, 0, 0⟩, phase := 0, segs := [.silence 1], pos := 0, env := 0 }

/-- The first note of a play and its index. -/
def openingNote (p : Pattern) : Nat × Note := (firstNote p 0).getD (0, silentNote)

/-- The note sounds: it has begun and its stage is not silence. -/
def Note.sounding (n : Note) : Bool :=
  match n.segs with
  | [] => false
  | g :: _ => !g.isSilence && !(decide (n.pos = 0) && decide (n.env = 0))

/-- One sample event of a note (R159). -/
def Note.sample (n : Note) : Int × Note :=
  match n.segs with
  | [] => (0, n)
  | g :: rest =>
    let k := n.pos + 1
    let e := g.env k
    let out := if g.isSilence then 0 else toneSample n.tone n.phase e
    let phase := if g.isSilence then n.phase else nextPhase n.tone n.phase
    match g.len? with
    | none => (out, { n with phase := phase, env := e })
    | some len =>
      if len ≤ k then (out, { n with phase := phase, env := e, segs := rest, pos := 0 })
      else (out, { n with phase := phase, env := e, pos := k })

/-- The length of the handover release (R154): 240 sample events. -/
def fadeLen : Nat := 240

/-- One sample event of a handover release. -/
def Fade.sample (f : Fade) : Int × Option Fade :=
  let k := f.m + 1
  (toneSample f.tone f.phase (f.e0 * (fadeLen - k) / fadeLen),
   if fadeLen ≤ k then none else some { f with m := k, phase := nextPhase f.tone f.phase })

/-- The handover release of a voice's note (R154): one in progress goes on; a sounding note begins one from its
envelope value; `duck` tells whether the note was a UI entry's with the DUCK flag. -/
def Voice.handover (v : Voice) (duck : Bool) : Option Fade :=
  match v.fade with
  | some f => some f
  | none =>
    match v.note with
    | none => none
    | some n =>
      if n.sounding then
        some { tone := n.tone, phase := n.phase, e0 := n.env, m := 0, cadence := v.play.isNone, duck := duck }
      else none

/-- The voice begins a play: a sounding note is handed over, and the play's first note begins after it (R154). -/
def Voice.begin (v : Voice) (src : PlaySource) (p : Pattern) : Voice :=
  { play := some { source := src, pattern := p, idx := (openingNote p).1 }, note := some (openingNote p).2,
    fade := v.handover false }

/-- The voice stops playing; a sounding note is handed over to silence (R152). -/
def Voice.cancel (v : Voice) (duck : Bool) : Voice := { play := none, note := none, fade := v.handover duck }

/-- A cadence note sounds on the voice, in a handover release or not. -/
def Voice.cadenceSounds (v : Voice) : Bool :=
  match v.fade with
  | some f => f.cadence
  | none => v.play.isNone && v.note.isSome

/-- The cadence is muted (R154): while the voice plays an entry or the fault chime, handover releases included. -/
def Voice.muting (v : Voice) : Bool := v.play.isSome || v.fade.isSome

/-- Cadence notes end without a release (R156). -/
def Voice.dropCadence (v : Voice) : Voice :=
  { play := v.play, note := if v.play.isSome then v.note else none,
    fade := match v.fade with | some f => if f.cadence then none else some f | none => none }

/-- One sample event of a voice: the sample, the voice after it, and whether a play was completed (its last note's
gap ended, R153). -/
def Voice.sample (v : Voice) : Int × Voice × Bool :=
  match v.fade with
  | some f => (f.sample.1, { v with fade := f.sample.2 }, false)
  | none =>
    match v.note with
    | none => (0, v, false)
    | some n =>
      let r := n.sample
      if r.2.segs.isEmpty then
        match v.play with
        | none => (r.1, { v with note := none }, false)
        | some p =>
          match firstNote (p.pattern.drop (p.idx + 1)) (p.idx + 1) with
          | some (i, m) => (r.1, { v with play := some { p with idx := i }, note := some m }, false)
          | none => (r.1, { v with note := none }, true)
      else (r.1, { v with note := some r.2 }, false)

/-! ## The mixer (R160) -/

/-- A value saturated to 16 bits. -/
def saturate16 (x : Int) : Int := clampInt (-32768) 32767 x

/-- The mixer's sum: the UI sample is divided by 2^2 while a cadence note sounds. -/
def mix (alert ui : Int) (dip : Bool) : Int := alert + (if dip then ui / 4 else ui)

end Sys2Proof.Machine
end

