-- ==== Sys2Proof/Machine/Chime.lean ====
section
/-! DEFINITION. The chime engine (Chapter 9): queues, the alert voice's choice, the sensor-fault chime, the parking
cadence, the duck line, and its commands CHIME_TICK, AUDIO_SAMPLE_EVENT and DUCK_TIMER_EXPIRY. -/

namespace Sys2Proof.Machine

/-- `s` with its chime engine changed by `f`. -/
def State.modChime (s : State) (f : Chime → Chime) : State := { s with chime := f s.chime }

/-! ## The duck line (R161) -/

/-- The alert voice is active: it sounds a note, plays, or the cadence generator runs. -/
def Chime.alertActive (c : Chime) : Bool :=
  c.alert.play.isSome || c.alert.note.isSome || c.alert.fade.isSome || decide (c.cad ≠ .off)

/-- The UI voice plays an entry with the DUCK flag, its gaps and its release after a cancel included. -/
def Chime.uiDucks (c : Chime) : Bool :=
  c.uiQ.any (fun q => q.playing && q.duck) || (match c.ui.fade with | some f => f.duck | none => false)

/-- The duck condition. -/
def Chime.duckCond (c : Chime) : Bool := c.alertActive || c.uiDucks

/-- The duck line follows its condition: asserted where it begins, which stops the timer; where it ends the timer is
started with the duck hold, or the line is released at once with a hold of 0. -/
def Chime.followDuck (c : Chime) (hold : Nat) : Chime :=
  if c.duckCond then { c with duck := true, duckTimer := none }
  else if c.duck && c.duckTimer.isNone then
    if hold = 0 then { c with duck := false } else { c with duckTimer := some hold }
  else c

/-- `Chime.followDuck` on the state. -/
def State.followDuck (s : State) : State := s.modChime (fun c => c.followDuck s.settings.chime.duckHold)

/-! ## The sensor-fault chime's pending flag and the cadence condition (R155, R156) -/

/-- The pattern of the sensor-fault chime, when the setting names a usable one (R155). -/
def Chime.faultChime? (c : Chime) (setting : Nat) : Option Pattern :=
  if setting = 255 then none else (c.library.getD setting none)

/-- The alert voice plays the fault chime. -/
def Chime.faultPlaying (c : Chime) : Bool :=
  match c.alert.play with
  | some p => decide (p.source = .fault)
  | none => false

/-- The fault chime becomes pending, unless it names nothing usable or is pending or playing already. -/
def Chime.makePending (c : Chime) (setting : Nat) : Chime :=
  if (c.faultChime? setting).isSome && !c.pending && !c.faultPlaying then { c with pending := true } else c

/-- The cadence condition: takeover ACTIVE or LINGER, zone CAUTION or STOP, as last handed (section 9.5). -/
def Chime.cadenceCond (c : Chime) : Bool :=
  decide (c.takeover ≠ .normal) && (decide (c.zone = .caution) || decide (c.zone = .stop))

/-- The generator enters OFF and its note ends without a release (R156). It then has no period, shown as 0 (Log 37). -/
def Chime.stopCadence (c : Chime) : Chime :=
  { c with cad := .off, period := 0, ticksLeft := 0, alert := c.alert.dropCadence }

/-- The event that ends the cadence condition acts at once (R156). -/
def Chime.judgeCadence (c : Chime) : Chime := if c.cadenceCond then c else c.stopCadence

/-- A parking zone event as handed by the guide engine (R140, R155, R156). -/
def Chime.takeZone (c : Chime) (setting : Nat) (z : Zone) (d : Option Nat) : Chime :=
  let was := c.zone
  let c := { c with zone := z, dist := d }
  let c := if z = .unknown ∧ was ≠ .unknown ∧ c.takeover ≠ .normal then c.makePending setting else c
  c.judgeCadence

/-- A change of the takeover state as handed by the takeover controller (R116, R155, R156). -/
def Chime.takeTakeover (c : Chime) (setting : Nat) (t : TakeoverState) : Chime :=
  let was := c.takeover
  let c := { c with takeover := t }
  let c := if was = .normal ∧ t = .active ∧ c.zone = .unknown then c.makePending setting else c
  let c := if t = .normal then { c with pending := false } else c
  c.judgeCadence

/-- The zone event on the state, with the duck line following. -/
def State.handZone (s : State) (z : Zone) (d : Option Nat) : State :=
  (s.modChime (fun c => c.takeZone s.settings.chime.faultPattern z d)).followDuck

/-- The takeover event on the state, with the duck line following. -/
def State.handTakeover (s : State) (t : TakeoverState) : State :=
  (s.modChime (fun c => c.takeTakeover s.settings.chime.faultPattern t)).followDuck

/-! ## Queues (R149 to R152) -/

/-- An entry's words are brought to what its holds say, but for an entry consumed in the walk being dealt with: it has
had no write yet, and its words are written when the cursor moves, after the old cursor's and in chain order (R4, R9). -/
def State.settleChime (s : State) (a : Nat) : State :=
  match s.hold? .chime a with
  | some h => if h.written.isSome then s.settle .chime a else s
  | none => s

/-- An entry of the chime engine ends with a verdict: its plays are kept for the report word, the verdict is recorded,
and its client hold ends (R13, R14, R149). -/
def State.endChime (s : State) (a : Nat) (v : EntryState) (plays : Nat) : State :=
  (s.modHold .chime a (fun h => { h with verdict := some v, count := plays, client := false, waiting := false })).settleChime a

/-- The state of an entry just consumed: not waiting, not used, without a verdict. -/
def freshChime (a : Nat) (last : Bool) : Hold := { Hold.fresh .chime a with cursor := last }

/-- The verdict DROPPED, counted (R163). -/
def State.dropChime (s : State) (q : QEntry) : State :=
  (s.modChime (fun c => { c with dropped := bump c.dropped })).endChime q.addr .dropped q.plays

/-- A queue's entries without those at address `a`. -/
def without (q : List QEntry) (a : Nat) : List QEntry := q.filter (fun e => e.addr != a)

/-- The alert queue's limit (R150). -/
def alertMax : Nat := 4

/-- The UI queue's limit (R151). -/
def uiMax : Nat := 8

/-- A newly taken URGENT entry (R150): placed at the tail, or DROPPED when the queue is full. Its hold record is kept
already, with its client hold. -/
def State.placeAlert (s : State) (q : QEntry) : State :=
  if s.chime.alertQ.length < alertMax then s.modChime (fun c => { c with alertQ := c.alertQ ++ [q] })
  else s.dropChime q

/-- The place of a newcomer in a UI queue with room (R151, step 2): behind the last waiting entry of its class. -/
def uiInsert (l : List QEntry) (q : QEntry) : List QEntry :=
  match q.cls with
  | .notice => l.filter (fun e => e.playing || decide (e.cls ≠ .click)) ++ [q] ++
      l.filter (fun e => !e.playing && decide (e.cls = .click))
  | .click => l ++ [q]
  | .urgent => l ++ [q]

/-- A waiting CLICK of the UI queue. -/
def waitingClick (l : List QEntry) : Option QEntry := l.find? (fun e => !e.playing && decide (e.cls = .click))

/-- Step 1 of R151: a CLICK newcomer drops the waiting CLICK. -/
def State.replaceClick (s : State) (q : QEntry) : State :=
  match q.cls, waitingClick s.chime.uiQ with
  | .click, some old => (s.modChime (fun c => { c with uiQ := without c.uiQ old.addr })).dropChime old
  | _, _ => s

/-- Steps 2 and 3 of R151. -/
def State.insertUi (s : State) (q : QEntry) : State :=
  if s.chime.uiQ.length < uiMax then s.modChime (fun c => { c with uiQ := uiInsert c.uiQ q })
  else
    match q.cls, s.chime.uiQ.getLast? with
    | .notice, some l =>
      if !l.playing && decide (l.cls = .click) then
        let s := (s.modChime (fun c => { c with uiQ := c.uiQ.dropLast })).dropChime l
        s.modChime (fun c => { c with uiQ := uiInsert c.uiQ q })
      else s.dropChime q
    | _, _ => s.dropChime q

/-- A newly taken NOTICE or CLICK entry (R151). -/
def State.placeUi (s : State) (q : QEntry) : State := (s.replaceClick q).insertUi q

/-- Cancel one queued entry (R152): a playing one is taken from its voice, whose note gets the handover release. -/
def State.cancelOne (s : State) (q : QEntry) : State :=
  let s := s.modChime (fun c =>
    { c with
      alertQ := without c.alertQ q.addr, uiQ := without c.uiQ q.addr,
      alert := if q.playing && decide (q.cls = .urgent) then c.alert.cancel false else c.alert,
      ui := if q.playing && decide (q.cls ≠ .urgent) then c.ui.cancel q.duck else c.ui,
      cancelled := bump c.cancelled })
  s.endChime q.addr .cancelled q.plays

/-- The queued entries a CANCEL names. -/
def Chime.tagged (c : Chime) (tag : Nat) : List QEntry := (c.alertQ ++ c.uiQ).filter (fun q => q.tag == tag)

/-- Deal with one entry handed by the walk (R149 to R152). `last` tells that it becomes the cursor. -/
def State.dealChime (s : State) (h : Handed ChimeBody) (last : Bool) : State :=
  let b := h.body
  let fresh := freshChime h.addr last
  let reject := fun (s : State) =>
    (s.putHold { fresh with verdict := some .rejected }).modChime (fun c => { c with rejected := bump c.rejected })
  if b.request = 1 then
    let l := s.chime.tagged b.tag
    let s := l.foldl (fun s q => s.cancelOne q) s
    s.putHold { fresh with used := true, verdict := some .done, count := min l.length 65535 }
  else if b.request = 0 then
    match b.cls, s.chime.library.getD b.pattern none with
    | some cls, some _ =>
      let q : QEntry := { addr := h.addr, cls := cls, pattern := b.pattern, repeats := b.repeats,
                          resumable := b.resumable, duck := b.duck, tag := b.tag, plays := 0, playing := false }
      let s := s.putHold { fresh with client := true, waiting := true }
      match cls with
      | .urgent => s.placeAlert q
      | .notice => s.placeUi q
      | .click => s.placeUi q
    | _, _ => reject s
  else reject s

/-- Deal with every entry the walk handed, in chain order, each before the next (R148, step 1). -/
def State.dealChimes (s : State) : List (Handed ChimeBody) → State
  | [] => s
  | [h] => s.dealChime h true
  | h :: t => (s.dealChime h false).dealChimes t

/-- The chime chain's polling event and its entries (R148, step 1). -/
def State.pollChimes (s : State) (e : LinkErrs) : State :=
  let q := s.checkSerial .chime e
  if q.1 = .failed then q.2
  else
    let r := q.2.pollWalk readChimeEntry .chime e
    (r.2.2.dealChimes r.1).moveCursor .chime (r.1.map (·.addr))

/-! ## Beginning an entry (R153, R154, R155) -/

/-- The playing mark of the entry at `a`. -/
def setPlaying (l : List QEntry) (a : Nat) (p : Bool) : List QEntry :=
  l.map (fun q => if q.addr = a then { q with playing := p } else q)

/-- The entry begins to play: it counts as used and its status becomes TAKEN at once, at the chime tick (R14, R153,
Log 52). -/
def State.beginEntry (s : State) (a : Nat) : State :=
  (s.modHold .chime a (fun h => { h with used := true, waiting := false })).settle .chime a

/-- The pattern of a queued entry. -/
def Chime.patternOf (c : Chime) (q : QEntry) : Pattern := (c.library.getD q.pattern none).getD []

/-- The UI voice is idle: it plays nothing and sounds no note (R153). -/
def Voice.isIdle (v : Voice) : Bool := v.play.isNone && v.note.isNone && v.fade.isNone

/-- Step 2 of a chime tick: an idle UI voice begins the head entry (R153). -/
def State.uiBegin (s : State) : State :=
  match s.chime.uiQ with
  | [] => s
  | q :: _ =>
    if s.chime.ui.isIdle then
      (s.modChime (fun c => { c with ui := c.ui.begin (.entry q.addr) (c.patternOf q),
                                     uiQ := setPlaying c.uiQ q.addr true })).beginEntry q.addr
    else s

/-- An URGENT entry is pushed back by the fault chime (R155): RESUMABLE entries wait again at the head with their
plays kept, others are DROPPED. -/
def State.pushBack (s : State) : State :=
  match s.chime.alertQ with
  | [] => s
  | q :: _ =>
    if q.playing then
      if q.resumable then
        ((s.modChime (fun c => { c with alertQ := setPlaying c.alertQ q.addr false })).modHold .chime q.addr
          (fun h => { h with waiting := true })).settle .chime q.addr
      else (s.modChime (fun c => { c with alertQ := without c.alertQ q.addr })).dropChime q
    else s

/-- The alert voice's choice (R154): the pending fault chime, then the play it has, then the head of its queue. -/
def State.alertChoice (s : State) : State :=
  match s.chime.pending, s.chime.faultChime? s.settings.chime.faultPattern with
  | true, some p =>
    let s := s.pushBack
    s.modChime (fun c => { c with pending := false, alert := c.alert.begin .fault p,
                                  faultChimes := bump c.faultChimes })
  | _, _ =>
    if s.chime.alert.play.isSome then s
    else
      match s.chime.alertQ with
      | [] => s
      | q :: _ =>
        (s.modChime (fun c => { c with alert := c.alert.begin (.entry q.addr) (c.patternOf q),
                                       alertQ := setPlaying c.alertQ q.addr true })).beginEntry q.addr

/-! ## The parking cadence (R157, R158) -/

/-- The cadence's tone; a SQUARE tone has duty 128. -/
def parkTone (st : ChimeSettings) : Tone := { freq := st.parkFreq, wave := st.parkWave, duty := 128, level := st.parkLevel }

/-- The period in use from the distance held (R157). -/
def cadencePeriod (st : ChimeSettings) (g : GuideSettings) (d : Nat) : Nat :=
  let t := (st.tMin : Int) + ((st.tMax : Int) - st.tMin) * ((d : Int) - g.dNear) / ((g.dFar : Int) - g.dNear)
  (10 * (t / 10)).toNat

/-- A beep of beep length (R157). -/
def beepNote (st : ChimeSettings) : Note :=
  { tone := parkTone st, phase := 0,
    segs := dropEmpty [.attack 0 (48 * st.parkAttack), .hold (48 * (st.beep - st.parkAttack - st.parkRelease)),
                       .release 4096 (48 * st.parkRelease)],
    pos := 0, env := 0 }

/-- The stages of the STOP tone: an attack from `e0`, then the endless hold (R158). -/
def toneSegs (st : ChimeSettings) (e0 : Nat) : List Seg := dropEmpty [.attack e0 (48 * st.parkAttack)] ++ [.sustain]

/-- The STOP tone over a sounding note, whose phase it keeps, or anew (R158). -/
def stopTone (st : ChimeSettings) (ahead : Option Note) : Note :=
  match ahead with
  | some n => { tone := parkTone st, phase := n.phase, segs := toneSegs st n.env, pos := 0, env := n.env }
  | none => { tone := parkTone st, phase := 0, segs := toneSegs st 0, pos := 0, env := 0 }

/-- The STOP tone becomes a beep (R158): it keeps its phase and envelope, goes on with what is left of its attack,
holds, and enters its release 48 × (beep length − park release) sample events after the tick. -/
def toneToBeep (st : ChimeSettings) (n : Note) : Note :=
  let total := 48 * (st.beep - st.parkRelease)
  let tail := fun used => dropEmpty [.hold (total - used), .release 4096 (48 * st.parkRelease)]
  match n.segs with
  | .attack e0 len :: _ => { n with segs := .attack e0 len :: tail (len - n.pos) }
  | _ => { n with segs := tail 0, pos := 0 }

/-- A period start (R157): the period from the distance held, and a beep unless the cadence is muted; `ahead` is the
tone that becomes the beep. -/
def Chime.startPeriod (c : Chime) (st : ChimeSettings) (g : GuideSettings) (ahead : Option Note) : Chime :=
  let p := cadencePeriod st g (c.dist.getD 0)
  let c := { c with cad := .caution, period := p, ticksLeft := p / 10 }
  if c.alert.muting then c
  else
    { c with alert := { c.alert with note := some (match ahead with | some n => toneToBeep st n | none => beepNote st) } }

/-- The cadence at a chime tick (R157, R158); in STOP it has no period, shown as 0 (Log 37). An entry cancelled at this very
tick that leaves no release mutes it no longer (Log 53). -/
def Chime.runCadence (c : Chime) (st : ChimeSettings) (g : GuideSettings) : Chime :=
  if !c.cadenceCond then c
  else if c.zone = .caution then
    match c.cad with
    | .off => c.startPeriod st g none
    | .caution => if c.ticksLeft ≤ 1 then c.startPeriod st g none else { c with ticksLeft := c.ticksLeft - 1 }
    | .stop => c.startPeriod st g c.alert.note
  else
    match c.cad with
    | .stop =>
      if !c.alert.muting && c.alert.note.isNone then
        { c with alert := { c.alert with note := some (stopTone st none) } }
      else c
    | _ =>
      let c := { c with cad := .stop, period := 0, ticksLeft := 0 }
      if c.alert.muting then c
      else { c with alert := { c.alert with note := some (stopTone st c.alert.note) } }

/-! ## Commands -/

/-- A chime tick's work in its order (R148). -/
def State.chimeTick (s : State) (e : LinkErrs) : State :=
  let s := s.modChime (fun c => { c with clipped := false })
  let s := s.pollChimes e
  let s := s.uiBegin
  let s := s.alertChoice
  let s := s.modChime (fun c => c.runCadence s.settings.chime s.settings.guide)
  s.followDuck

/-- CHIME_TICK (R148): in RUN with the tick timer running. -/
def execChimeTick (e : LinkErrs) (s : State) : Host.Outcome State Fault Refusal :=
  if s.runState = .run ∧ s.chime.tickOn then .next (s.chimeTick e) else .next s

/-- A play of the entry at `a` is complete (R153): the count grows; the entry ends DONE when its repeats are reached,
else its next play begins at the next sample event. Gives the new queue, and the plays when the entry ends. -/
def completePlay (l : List QEntry) (a : Nat) : List QEntry × Option Nat :=
  match l.find? (fun q => q.addr == a) with
  | none => (l, none)
  | some q =>
    let plays := bump q.plays
    if q.repeats ≠ 0 ∧ q.repeats ≤ plays then (without l a, some plays)
    else (l.map (fun x => if x.addr = a then { x with plays := plays } else x), none)

/-- The voice after a completed play: idle when the sound has ended, else at the pattern's first note again. -/
def Voice.afterPlay (v : Voice) (ended : Bool) : Voice :=
  if ended then { v with play := none, note := none }
  else
    match v.play with
    | none => v
    | some p => { v with play := some { p with idx := (openingNote p.pattern).1 },
                         note := some (openingNote p.pattern).2 }

/-- A completed play of the alert voice: the fault chime plays once (R155). -/
def State.alertComplete (s : State) : State :=
  match s.chime.alert.play with
  | none => s
  | some p =>
    match p.source with
    | .fault => s.modChime (fun c => { c with alert := c.alert.afterPlay true })
    | .entry a =>
      let r := completePlay s.chime.alertQ a
      let s := s.modChime (fun c => { c with alertQ := r.1, alert := c.alert.afterPlay r.2.isSome })
      match r.2 with
      | some plays => s.endChime a .done plays
      | none => s

/-- A completed play of the UI voice. -/
def State.uiComplete (s : State) : State :=
  match s.chime.ui.play with
  | none => s
  | some p =>
    match p.source with
    | .fault => s
    | .entry a =>
      let r := completePlay s.chime.uiQ a
      let s := s.modChime (fun c => { c with uiQ := r.1, ui := c.ui.afterPlay r.2.isSome })
      match r.2 with
      | some plays => s.endChime a .done plays
      | none => s

/-- The mixer's and the voices' part of a sample event (R159, R160): the sample sent, the clip counter counting once
for each chime tick interval, at its first saturated sample (Log 38), and the voices one sample on. -/
def Chime.sample (c : Chime) : Chime :=
  let a := c.alert.sample
  let u := c.ui.sample
  let out := mix a.1 u.1 c.alert.cadenceSounds
  let clip := decide (saturate16 out ≠ out)
  { c with alert := a.2.1, ui := u.2.1, audioOut := saturate16 out,
           clips := if clip && !c.clipped then bump c.clips else c.clips, clipped := c.clipped || clip }

/-- A sample event in RUN: the samples, then the plays they complete, then the duck line. -/
def State.sampleEvent (s : State) : State :=
  let aDone := s.chime.alert.sample.2.2
  let uDone := s.chime.ui.sample.2.2
  let s := s.modChime Chime.sample
  let s := if aDone then s.alertComplete else s
  let s := if uDone then s.uiComplete else s
  s.followDuck

/-- AUDIO_SAMPLE_EVENT (R159, R160): outside RUN the audio port sends zeros. -/
def execAudioSampleEvent (s : State) : Host.Outcome State Fault Refusal :=
  if s.runState = .run then .next s.sampleEvent else .next (s.modChime (fun c => { c with audioOut := 0 }))

/-- DUCK_TIMER_EXPIRY (R161): a running duck timer expires and the line is released. -/
def execDuckTimerExpiry (s : State) : Host.Outcome State Fault Refusal :=
  match s.chime.duckTimer with
  | some _ => .next (s.modChime (fun c => { c with duck := false, duckTimer := none }))
  | none => .next s

/-! ## Leaving RUN (R162) -/

/-- The engine silent: notes end without release, voices idle, cadence OFF, nothing pending, zeros on the audio port,
the duck line released and its timer and the tick timer stopped. -/
def Chime.silence (c : Chime) : Chime :=
  { c with alertQ := [], uiQ := [], alert := Voice.idle, ui := Voice.idle, cad := .off, period := 0, ticksLeft := 0,
           pending := false, tickOn := false, duck := false, duckTimer := none, audioOut := 0 }

/-- Entering STANDBY (R162): every queued entry receives RELEASED with its plays in its report word, by R13 and
R14. -/
def State.chimeStandby (s : State) : State :=
  let l := s.chime.alertQ ++ s.chime.uiQ
  l.foldl (fun s q => s.endChime q.addr .released q.plays) (s.modChime Chime.silence)

/-- The entry into STOPPING (R162): queued entries take the verdict RELEASED, or the one already recorded; R18 writes
them at the end of the stop. -/
def State.chimeStop (s : State) : State :=
  let l := s.chime.alertQ ++ s.chime.uiQ
  l.foldl (fun s q => s.modHold .chime q.addr (fun h =>
    { h with verdict := some (h.verdict.getD .released), count := q.plays })) (s.modChime Chime.silence)

end Sys2Proof.Machine
end

