-- ==== Sys2Proof/Machine/Takeover.lean ====
section
/-! DEFINITION. The reverse monitor, the reverse decision and the takeover controller (sections 7.2 to 7.4), with the
entry into STANDBY and the return to RUN that they grant and cause (R170). -/

namespace Sys2Proof.Machine

/-! ## STANDBY and the return to RUN (R118, R170) -/

/-- The part enters STANDBY (R170): each screen's refresh becomes its last, capture is disabled, chime entries are
RELEASED; chains, streams, receiver, monitor and status writer go on as they stand. -/
def State.enterStandby (s : State) : State :=
  let s := s.modTakeover (fun t => { t with pendingStandby := false })
  let s := { s with runState := .standby, screens := s.screens.map Screen.leaveRun }
  (s.clearAdmissions.disableCapture true).chimeStandby

/-- The part returns to RUN from STANDBY (R170): the timing generators and the chime tick start, the streams wait for
their pacing screens' first frame starts, and the condition for capture is judged. -/
def State.resume (s : State) : State :=
  let s := { s with runState := .run, regs := { s.regs with standby := false } }
  let s := { s.startGens with streams := ⟨{ s.streams.a with pacedAfter := none }, { s.streams.b with pacedAfter := none }⟩ }
  s.modChime (fun c => { c with tickOn := true })

/-! ## The takeover controller -/

/-- The takeover state changes: TAKEOVER is raised and the new state handed to the chime engine (R116). -/
def State.setTakeover (s : State) (t : TakeoverState) : State :=
  ((s.modTakeover (fun k => { k with state := t })).raise .takeover).handTakeover t

/-- A takeover start (R116): ACTIVE, counted; the guide engine's angle in use is set (R134); capture becomes enabled if
it was not, and the view status is set anew. -/
def State.takeoverStart (s : State) : State :=
  let s := s.setTakeover .active
  let s := s.modTakeover (fun t => { t with takeovers := bump t.takeovers })
  let s := { s with guide := s.guide.setAngle s.vehicle.angle }
  if s.camera.enabled then
    if (bufferOf s.camera.roles .shown).isSome && !s.camera.silent then s.liveView else s.waitView
  else s.enableCapture.waitView

/-- A reverse engaged event in LINGER (R116): back to ACTIVE, the linger timer stopped, the view status kept. -/
def State.backToActive (s : State) : State :=
  (s.modTakeover (fun t => { t with linger := none })).setTakeover .active

/-- The return to NORMAL (R117): the linger timer stops and the condition for capture is judged (R122). -/
def State.toNormal (s : State) : State :=
  ((s.modTakeover (fun t => { t with linger := none })).setTakeover .normal).judgeCapture

/-- The vehicle record shows SPEED fresh, direction FORWARD and a speed at or above the linger-exit speed (R117). -/
def State.forwardFast (s : State) : Bool :=
  s.vehicle.kinds.speed.fresh && decide (s.vehicle.direction = .forward) &&
  decide (s.settings.reverse.lingerExit ≤ s.vehicle.speed)

/-- A reverse released event in ACTIVE (R117, R118): NORMAL at once with a pending standby, which is then granted, with
a linger time of 0 or with the car going forward; else LINGER. -/
def State.releaseActive (s : State) : State :=
  if s.takeover.pendingStandby then s.toNormal.enterStandby
  else if s.settings.reverse.linger = 0 then s.toNormal
  else
    let s := (s.modTakeover (fun t => { t with linger := some s.settings.reverse.linger })).setTakeover .linger
    if s.forwardFast then s.toNormal else s

/-- A reverse engaged event (R116, R119): a wake in STANDBY, else by the takeover state. -/
def State.reverseEngaged (s : State) : State :=
  match s.runState with
  | .standby => (s.resume.raise .wake).takeoverStart
  | .run =>
    match s.takeover.state with
    | .normal => s.takeoverStart
    | .linger => s.backToActive
    | .active => s
  | .off => s
  | .starting => s
  | .stopping => s

/-- A reverse released event (R117, R119): it acts in ACTIVE; in STANDBY and NORMAL it changes nothing. -/
def State.reverseReleased (s : State) : State := if s.takeover.state = .active then s.releaseActive else s

/-- The line decision (section 7.2). -/
def Monitor.decision (m : Monitor) : Bool := decide (m.state = .engaged) || decide (m.state = .offPending)

/-- The reverse decision formed from the line and link decisions by the reverse source (R115). -/
def reverseDecision (src : ReverseSource) (line link : Bool) : Bool :=
  match src with
  | .line => line
  | .link => link
  | .either => line || link

/-- The reverse decision is formed anew; a change of it is an event at the takeover controller (R115). -/
def State.judgeReverse (s : State) : State :=
  let d := reverseDecision s.settings.reverse.source s.monitor.decision s.takeover.linkDecision
  if d = s.takeover.reverse then s
  else
    let s := s.modTakeover (fun t => { t with reverse := d })
    if d then s.reverseEngaged else s.reverseReleased

/-! ## The reverse monitor (R112 to R114) -/

/-- A period length in whole milliseconds, saturating at 65,535 (R114). -/
def periodLen (m : Monitor) (ms : Nat) : Nat := min (m.sinceChange + ms) 65535

/-- The line has become active, `ms` after the monitor's last event (R112, R113, R114). A change from a level the line
does not have is no event (Log 3). -/
def Monitor.lineActive (m : Monitor) (st : ReverseSettings) (ms : Nat) : Monitor :=
  match m.state with
  | .released =>
    { m with state := .onPending, settle := some st.settleOn, inactiveLen := periodLen m ms, sinceChange := 0 }
  | .offPending =>
    { m with state := .engaged, settle := none, inactiveLen := periodLen m ms, sinceChange := 0,
             dropouts := bump m.dropouts }
  | .onPending => m
  | .engaged => m

/-- The line has become inactive, `ms` after the monitor's last event (R112, R113, R114). The pulse is judged by its
whole length, the recorded length saturates. -/
def Monitor.lineInactive (m : Monitor) (st : ReverseSettings) (ms : Nat) : Monitor :=
  match m.state with
  | .onPending =>
    let m' := { m with state := .released, settle := none, activeLen := periodLen m ms, sinceChange := 0 }
    if m.sinceChange + ms < st.glitch then { m' with glitches := bump m.glitches }
    else { m' with shorts := bump m.shorts }
  | .engaged =>
    { m with state := .offPending, settle := some st.settleOff, activeLen := periodLen m ms, sinceChange := 0 }
  | .released => m
  | .offPending => m

/-- The settle timer, running for `n` ms since the last change of the line, expires (R112, R113). -/
def Monitor.settled (m : Monitor) (n : Nat) : Monitor :=
  match m.state with
  | .onPending => { m with state := .engaged, settle := none, sinceChange := m.sinceChange + n }
  | .offPending => { m with state := .released, settle := none, sinceChange := m.sinceChange + n }
  | .released => { m with settle := none }
  | .engaged => { m with settle := none }

/-- The monitor at its start, the line `active` or not (R114). -/
def Monitor.started (active : Bool) (st : ReverseSettings) : Monitor :=
  let m := { Monitor.reset with on := true }
  if active then { m with state := .onPending, settle := some st.settleOn } else m

/-- The pin's level that means reverse is read as active (Table 7-1). -/
def State.lineActive (s : State) : Bool := s.linePin != s.settings.reverse.activeLow

/-- REVERSE_LINE_ACTIVE (R112, R113): the line's level changes, and a running monitor acts on it. The level is that of the
polarity in the settings copy, in OFF and STARTING too (Log 43). -/
def execReverseLineActive (ms : Nat) (s : State) : Host.Outcome State Fault Refusal :=
  let s := { s with linePin := !s.settings.reverse.activeLow }
  if s.monitor.on then .next { s with monitor := s.monitor.lineActive s.settings.reverse ms } else .next s

/-- REVERSE_LINE_INACTIVE (R112, R113), its level as in `execReverseLineActive` (Log 43). -/
def execReverseLineInactive (ms : Nat) (s : State) : Host.Outcome State Fault Refusal :=
  let s := { s with linePin := s.settings.reverse.activeLow }
  if s.monitor.on then .next { s with monitor := s.monitor.lineInactive s.settings.reverse ms } else .next s

/-- SETTLE_TIMER_EXPIRY (R112, R113): a running settle timer expires; the line decision may change. -/
def execSettleTimerExpiry (s : State) : Host.Outcome State Fault Refusal :=
  match s.monitor.settle with
  | none => .next s
  | some n => .next ({ s with monitor := s.monitor.settled n }.judgeReverse)

/-! ## Linger, DISMISS, STANDBY -/

/-- LINGER_TIMER_EXPIRY (R117). -/
def execLingerTimerExpiry (s : State) : Host.Outcome State Fault Refusal :=
  match s.takeover.linger with
  | none => .next s
  | some _ => .next s.toNormal

/-- CTRL.DISMISS written 1 (R117, R165): it ends LINGER in RUN. -/
def State.dismiss (s : State) : State :=
  if s.runState = .run ∧ s.takeover.state = .linger then s.toNormal else s

/-- DISMISS (R117). -/
def execDismiss (s : State) : Host.Outcome State Fault Refusal := .next s.dismiss

/-- A standby request at the takeover controller (R118). -/
def State.requestStandby (s : State) : State :=
  match s.takeover.state with
  | .normal => s.enterStandby
  | .linger => s.toNormal.enterStandby
  | .active => s.modTakeover (fun t => { t with pendingStandby := true })

/-- CTRL.STANDBY written `v` (R118, R165, R170, R171): a write that leaves the bit unchanged has no effect; in RUN a 1
is a standby request and a 0 clears a pending one; in STANDBY a 0 returns the part to RUN; in the other run states the
bit is only stored. -/
def State.writeStandby (s : State) (v : Bool) : State :=
  if s.regs.standby = v then s
  else
    let s := { s with regs := { s.regs with standby := v } }
    match s.runState, v with
    | .run, true => s.requestStandby
    | .run, false => s.modTakeover (fun t => { t with pendingStandby := false })
    | .standby, false => s.resume.judgeCapture
    | _, _ => s

/-- STANDBY_REQUEST (R118). -/
def execStandbyRequest (s : State) : Host.Outcome State Fault Refusal := .next (s.writeStandby true)

/-- STANDBY_RETURN (R170). -/
def execStandbyReturn (s : State) : Host.Outcome State Fault Refusal := .next (s.writeStandby false)

end Sys2Proof.Machine
end

