-- ==== Sys2Proof/Machine/Link.lean ====
section
/-! DEFINITION. The vehicle link receiver (Chapter 6): bytes, the receive buffer, the judgement of a message, the
vehicle record and its freshness, and what each acceptance and each staleness hands on. -/

namespace Sys2Proof.Machine

/-- `s` with its receiver changed by `f`. -/
def State.modLink (s : State) (f : Receiver → Receiver) : State := { s with link := f s.link }

/-- `s` with its vehicle record changed by `f`. -/
def State.modVehicle (s : State) (f : Vehicle → Vehicle) : State := { s with vehicle := f s.vehicle }

/-! ## Bytes (R98 to R100) -/

/-- The number of 1 bits among the eight data bits. -/
def ones (b : Byte) : Nat :=
  (b.toNat % 2) + (b.toNat / 2 % 2) + (b.toNat / 4 % 2) + (b.toNat / 8 % 2) + (b.toNat / 16 % 2) +
  (b.toNat / 32 % 2) + (b.toNat / 64 % 2) + (b.toNat / 128 % 2)

/-- The byte has a parity error (R98). -/
def byteParityError (b : LineByte) : Parity → Bool
  | .none => false
  | .even => decide ((ones b.data + (if b.parity then 1 else 0)) % 2 = 1)
  | .odd => decide ((ones b.data + (if b.parity then 1 else 0)) % 2 = 0)

/-- The byte has a framing error: one of its stop bits is low (R98). -/
def byteFramingError (b : LineByte) (stopBits : Nat) : Bool := !b.stop1 || (decide (stopBits = 2) && !b.stop2)

/-- The damage of one byte: framing when it has both errors (R98). -/
def byteDamage (b : LineByte) (st : LinkSettings) : Option Damage :=
  if byteFramingError b st.stopBits then some .framing
  else if byteParityError b st.parity then some .parity
  else none

/-- The size of the receive buffer (R99). -/
def bufferMax : Nat := 16

/-- A byte at a receiver that is looking for one (R98 to R100). A start bit high at its middle is noise. A byte that
finds the buffer full is not stored and not judged. -/
def Receiver.take (r : Receiver) (st : LinkSettings) (b : LineByte) : Receiver :=
  if b.start then { r with awaitHigh := false }
  else if r.buf.length < bufferMax then
    { r with buf := r.buf ++ [b.data], awaitHigh := byteFramingError b st.stopBits,
             damaged := match r.damaged with | some d => some d | none => byteDamage b st }
  else { r with long := true, awaitHigh := false }

/-- VEHICLE_LINK_BYTE (R98): the line is not watched while the receiver is stopped or waits for an idle line. -/
def execVehicleLinkByte (b : LineByte) (s : State) : Host.Outcome State Fault Refusal :=
  if s.link.on && !s.link.waitIdle then .next (s.modLink (fun r => r.take s.settings.link b)) else .next s

/-- RECEIVER_IDLE_WAIT_END (R99): the line has been high for 8 bit-times after the receiver's start. -/
def execReceiverIdleWaitEnd (s : State) : Host.Outcome State Fault Refusal :=
  if s.link.on && s.link.waitIdle then .next (s.modLink (fun r => { r with waitIdle := false })) else .next s

/-! ## Messages (Table 6-2, R101) -/

/-- The kind codes (Table 6-2). -/
def kindOf : Nat → Option Kind
  | 0x21 => some .steer
  | 0x22 => some .speed
  | 0x23 => some .range
  | 0x24 => some .gear
  | 0x25 => some .dim
  | _ => none

/-- The bytes of a message of each kind (Table 6-2). -/
def messageLen : Kind → Nat
  | .steer => 5
  | .speed => 6
  | .range => 11
  | .gear => 4
  | .dim => 4

/-- Byte `n` of a message. -/
def byteAt (l : List Byte) (n : Nat) : Nat := (l.getD n 0).toNat

/-- The little-endian 16-bit value at byte `n`. -/
def halfAt (l : List Byte) (n : Nat) : Nat := byteAt l n + 256 * byteAt l (n + 1)

/-- The 8-bit sum of the bytes. -/
def byteSum (l : List Byte) : Byte := l.foldl (· + ·) 0

/-- The outcome of the checks of R101. -/
inductive Judged where
  | parity
  | framing
  | long
  | length
  | unknown
  | check
  | repeated
  | accept (k : Kind) (alive : BitVec 4)
  deriving DecidableEq, Repr

/-- The judgement of the message in the buffer, in the order of R101. -/
def judgeMessage (r : Receiver) (kinds : PerKind KindRec) : Judged :=
  match r.damaged with
  | some .parity => .parity
  | some .framing => .framing
  | none =>
    if r.long then .long
    else
      match kindOf (byteAt r.buf 0) with
      | none => .unknown
      | some k =>
        if r.buf.length ≠ messageLen k then .length
        else if byteSum r.buf ≠ 0 ∨ 16 ≤ byteAt r.buf 1 then .check
        else
          let alive : BitVec 4 := BitVec.ofNat 4 (byteAt r.buf 1)
          if (kinds.get k).alive = some alive then .repeated else .accept k alive

/-- The counter of a discarded message (R101, R107). -/
def Receiver.count (r : Receiver) : Judged → Receiver
  | .parity => { r with parityErrs := bump r.parityErrs }
  | .framing => { r with framingErrs := bump r.framingErrs }
  | .long => { r with longs := bump r.longs }
  | .length => { r with lengths := bump r.lengths }
  | .unknown => { r with unknowns := bump r.unknowns }
  | .check => { r with checks := bump r.checks }
  | .repeated => { r with repeats := bump r.repeats }
  | .accept _ _ => r

/-- The buffer, its count and its marks are cleared (R99). -/
def Receiver.clear (r : Receiver) : Receiver := { r with buf := [], damaged := none, long := false, awaitHigh := false }

/-! ## The vehicle record (R102 to R106) -/

/-- The freshness limit of a kind. -/
def State.freshLimit (s : State) (k : Kind) : Nat := s.settings.link.fresh.get k

/-- An acceptance of a kind renews its freshness and its kept alive counter, and is counted (R102, R103). -/
def State.renew (s : State) (k : Kind) (alive : BitVec 4) : State :=
  let r := s.vehicle.kinds.get k
  let r' : KindRec :=
    { alive := some alive, fresh := true, timer := some (s.freshLimit k), accepted := bump r.accepted }
  (s.modVehicle (fun v => { v with kinds := v.kinds.set k r' })).raiseIf (!r.fresh) .vehicle

/-- The motion state judged from the speed entry (R105). -/
def Vehicle.motionNow (v : Vehicle) (st : LinkSettings) : Motion :=
  if !v.kinds.speed.fresh then .unknown
  else if st.restrictOn ≤ v.speed then .moving
  else if v.speed ≤ st.restrictOff then .still
  else v.motion

/-- The cover mark of a centre refresh that shows the host's plan is set (R54). DESIGN CHOICE (Log 59): a refresh of the
takeover picture keeps its mark clear. -/
def Refresh.setCover (r : Refresh) : Refresh := if r.set.takeover then r else { r with cover := true }

/-- The motion state is judged again: VEHICLE at a change (R105), and the centre pipe's cover mark at once when the new
state is MOVING or UNKNOWN (R54). -/
def State.judgeMotion (s : State) : State :=
  let m := s.vehicle.motionNow s.settings.link
  if m = s.vehicle.motion then s
  else
    let s := (s.modVehicle (fun v => { v with motion := m })).raise .vehicle
    if m = .still then s else s.modScreen .centre (fun sc => { sc with refresh := sc.refresh.map Refresh.setCover })

/-- The direction byte (Table 6-3). -/
def directionOf : Nat → Direction
  | 0 => .forward
  | 1 => .reverse
  | _ => .unknown

/-- The gear byte (Table 6-3). -/
def gearOf : Nat → Gear
  | 0 => .p
  | 1 => .r
  | 2 => .n
  | 3 => .d
  | _ => .unknown

/-- The steering angle of a STEER message (Table 6-3). -/
def steerAngle (l : List Byte) : Int := clampInt (-9000) 9000 (toSigned 16 (halfAt l 2))

/-- The four distances of a RANGE message (Table 6-3): a value of 0 is kept as 1. -/
def rangeValues (l : List Byte) : List Nat := [2, 4, 6, 8].map (fun n => max 1 (halfAt l n))

/-- A STEER acceptance (R104, R134, R135). -/
def State.acceptSteer (s : State) (l : List Byte) (alive : BitVec 4) : State :=
  let was := s.vehicle.kinds.steer.fresh
  let a := steerAngle l
  let s := (s.renew .steer alive).modVehicle (fun v => { v with angle := a })
  { s with guide := s.guide.steer s.settings.guide.deadband was a }

/-- A SPEED acceptance (R104, R105), and the test for the end of LINGER (R117). -/
def State.acceptSpeed (s : State) (l : List Byte) (alive : BitVec 4) : State :=
  let s := (s.renew .speed alive).modVehicle
    (fun v => { v with speed := min (halfAt l 2) 30000, direction := directionOf (byteAt l 4) })
  let s := s.judgeMotion
  if s.takeover.state = .linger ∧ s.forwardFast then s.toNormal else s

/-- The parking zone record is set and handed to the chime engine (R139, R140). -/
def State.setZone (s : State) (z : Zone) (d : Option Nat) : State :=
  { s with guide := s.guide.setZone z d }.handZone z d

/-- A RANGE acceptance (R104, R139, R140). -/
def State.acceptRange (s : State) (l : List Byte) (alive : BitVec 4) : State :=
  let rs := rangeValues l
  let s := (s.renew .range alive).modVehicle (fun v => { v with ranges := rs })
  s.setZone (zoneOf s.settings.guide rs) (nearest rs)

/-- A GEAR acceptance (R104, R115): the link decision is made from the code, and the reverse decision formed anew. -/
def State.acceptGear (s : State) (l : List Byte) (alive : BitVec 4) : State :=
  let g := gearOf (byteAt l 2)
  let s := (s.renew .gear alive).modVehicle (fun v => { v with gear := g })
  (s.modTakeover (fun t => { t with linkDecision := decide (g = .r) })).judgeReverse

/-- A DIM acceptance (R104, R106): the dim value in use, and each screen's duty. -/
def State.acceptDim (s : State) (l : List Byte) (alive : BitVec 4) : State :=
  let d := byteAt l 2
  ((s.renew .dim alive).modVehicle (fun v => { v with dim := d, dimInUse := d })).recomputeDuties

/-- An accepted message (R104, R106). -/
def State.accept (s : State) (k : Kind) (l : List Byte) (alive : BitVec 4) : State :=
  match k with
  | .steer => s.acceptSteer l alive
  | .speed => s.acceptSpeed l alive
  | .range => s.acceptRange l alive
  | .gear => s.acceptGear l alive
  | .dim => s.acceptDim l alive

/-- What a judged message does (R101): in STANDBY nothing is counted and only a GEAR message is accepted (R108). -/
def State.deliver (s : State) (l : List Byte) (j : Judged) : State :=
  match j with
  | .accept k alive =>
    if s.runState = .standby ∧ k ≠ .gear then s else s.accept k l alive
  | _ => if s.runState = .standby then s else s.modLink (fun r => r.count j)

/-- MESSAGE_BOUNDARY (R99, R101): the message is judged and the buffer cleared. Without a message in progress there is
no boundary (Log 3). -/
def execMessageBoundary (s : State) : Host.Outcome State Fault Refusal :=
  if s.link.on && !s.link.buf.isEmpty then
    .next ((s.modLink Receiver.clear).deliver s.link.buf (judgeMessage s.link s.vehicle.kinds))
  else .next s

/-! ## Staleness (R103, R106) -/

/-- A kind goes stale: its timer stops and VEHICLE is raised (R103). -/
def State.stale (s : State) (k : Kind) : State :=
  let r : KindRec := { s.vehicle.kinds.get k with fresh := false, timer := none }
  (s.modVehicle (fun v => { v with kinds := v.kinds.set k r })).raise .vehicle

/-- What the readers of a kind do at its staleness (Table 6-4). -/
def State.staleReaders (s : State) : Kind → State
  | .steer => { s with guide := s.guide.steerStale }
  | .speed => s.judgeMotion
  | .range => s.setZone .unknown none
  | .gear => s
  | .dim => s

/-- FRESHNESS_TIMER_EXPIRY (R103): a kind's running freshness timer expires. -/
def execFreshnessTimerExpiry (k : Kind) (s : State) : Host.Outcome State Fault Refusal :=
  match (s.vehicle.kinds.get k).timer with
  | none => .next s
  | some _ => .next ((s.stale k).staleReaders k)

end Sys2Proof.Machine
end

