-- ==== Sys2Proof/Machine/Flags.lean ====
section
/-! DEFINITION. The register words the host reads (Table 11-10), the codes of Chapter 11 and the interrupt line. -/

namespace Sys2Proof.Machine

/-! ## Codes (Tables 11-9 and 11-10) -/

/-- The run state codes. -/
def RunState.code : RunState → Nat
  | .off => 0
  | .starting => 1
  | .run => 2
  | .standby => 3
  | .stopping => 4

/-- The start result codes. -/
def StartResult.code : StartResult → Nat
  | .ok => 0
  | .badBookAddress => 1
  | .badFormat => 2
  | .badSettings => 3
  | .memoryError => 4

/-- The takeover state codes. -/
def TakeoverState.code : TakeoverState → Nat
  | .normal => 0
  | .active => 1
  | .linger => 2

/-- The view status codes; 0 for none. -/
def viewCode : Option View → Nat
  | none => 0
  | some .wait => 1
  | some .live => 2
  | some .lost => 3

/-- The value of a set flag: 1, in a bit and in a byte of its own (Log 58). -/
def boolCode (b : Bool) : Nat := if b then 1 else 0

/-! ## Registers -/

/-- The bits of NOTICE and NOTICE_MASK that are assigned (R176). -/
def noticeBits : Word := 0x1FFF

/-- CTRL as read: the level bits; the action bits read 0 (R165). -/
def State.ctrlWord (s : State) : Word :=
  BitVec.ofNat 32 (boolCode s.regs.run + 2 * boolCode s.regs.standby + 4 * boolCode s.regs.freeze +
    8 * boolCode s.regs.irqEnable)

/-- STATE as read (R166): each field follows its owner at the moment of the read. -/
def State.stateWord (s : State) : Word :=
  BitVec.ofNat 32 (s.runState.code + 8 * boolCode s.status.frozen + 16 * s.takeover.state.code +
    64 * viewCode s.takeover.view + 256 * s.regs.startResult.code + 2048 * boolCode s.regs.guideRejected +
    65536 * s.regs.startDetail)

/-- The interrupt line (R167): asserted while CTRL.IRQ_ENABLE is 1 and some flag is set in both NOTICE and
NOTICE_MASK. It is a function of the registers, so it follows each change of them at once, in every run state. -/
def State.irqLine (s : State) : Bool := s.regs.irqEnable && decide (s.regs.notice &&& s.regs.noticeMask ≠ 0)

/-- A read of `width` bytes at `off` of the register window (R164, R176): 4-byte accesses at the registers' own
offsets, BOOKADDR also as 8 bytes; every other access reads 0. -/
def State.readReg (s : State) (off width : Nat) : Nat :=
  if width = 8 ∧ off = 0x00 then s.regs.bookAddr.toNat
  else if width = 4 then
    if off = 0x00 then s.regs.bookAddr.toNat % 2 ^ 32
    else if off = 0x04 then s.regs.bookAddr.toNat / 2 ^ 32
    else if off = 0x08 then s.ctrlWord.toNat
    else if off = 0x0C then s.stateWord.toNat
    else if off = 0x10 then s.regs.notice.toNat
    else if off = 0x14 then s.regs.noticeMask.toNat
    else 0
  else 0

end Sys2Proof.Machine
end

