-- ==== Sys2Proof/Machine/Status.lean ====
section
/-! DEFINITION. The status page (section 11.7) and the status writer (R173, R174). -/

namespace Sys2Proof.Machine

/-- `s` with its status writer changed by `f`. -/
def State.modStatus (s : State) (f : StatusWriter → StatusWriter) : State := { s with status := f s.status }

/-! ## Codes (Table 11-9) -/

/-- Chain states. -/
def ChainState.code : ChainState → Nat
  | .empty => 0
  | .running => 1
  | .faulted => 2

/-- Fault causes. -/
def FaultCause.code : FaultCause → Nat
  | .none => 0
  | .address => 1
  | .alignment => 2
  | .loop => 3
  | .readError => 4
  | .linkRead => 5
  | .rootRead => 6
  | .writeError => 7
  | .kind => 8

/-- Modes. -/
def Mode.code : Mode → Nat
  | .normal => 0
  | .invert => 1
  | .blank => 2
  | .dark => 3

/-- Panel states. -/
def Panel.code : Panel → Nat
  | .idle => 0
  | .sending => 1

/-- Stream states. -/
def StreamState.code : StreamState → Nat
  | .idle => 0
  | .priming => 1
  | .playing => 2
  | .paused => 3
  | .starved => 4
  | .ended => 5
  | .faulted => 6

/-- Requested states. -/
def Req.code : Req → Nat
  | .stop => 0
  | .run => 1
  | .pause => 2

/-- Screen numbers. -/
def screenCode : ScreenId → Nat
  | .centre => 0
  | .left => 1
  | .right => 2

/-- Directions. -/
def Direction.code : Direction → Nat
  | .forward => 0
  | .reverse => 1
  | .unknown => 2

/-- Gears. -/
def Gear.code : Gear → Nat
  | .p => 0
  | .r => 1
  | .n => 2
  | .d => 3
  | .unknown => 4

/-- Motion states. -/
def Motion.code : Motion → Nat
  | .unknown => 0
  | .moving => 1
  | .still => 2

/-- Reverse sources. -/
def ReverseSource.code : ReverseSource → Nat
  | .line => 0
  | .link => 1
  | .either => 2

/-- Monitor states. -/
def MonitorState.code : MonitorState → Nat
  | .released => 0
  | .onPending => 1
  | .engaged => 2
  | .offPending => 3

/-- Capture unit states. -/
def CaptureState.code : CaptureState → Nat
  | .idle => 0
  | .seeking => 1
  | .receiving => 2

/-- Buffer roles. -/
def Role.code : Role → Nat
  | .free => 0
  | .capturing => 1
  | .ready => 2
  | .shown => 3

/-- Guide states. -/
def GuideState.code : GuideState → Nat
  | .inUse => 0
  | .disabled => 1
  | .tableRejected => 2

/-- Rejection reasons, in the order of R132. -/
def GuideReason.code : GuideReason → Nat
  | .none => 0
  | .nodeCount => 1
  | .markCount => 2
  | .angleRange => 3
  | .angleOrder => 4
  | .distanceRange => 5
  | .distanceOrder => 6
  | .colour => 7
  | .pointRange => 8

/-- Zones. -/
def Zone.code : Zone → Nat
  | .unknown => 0
  | .clear => 1
  | .caution => 2
  | .stop => 3

/-- Cadence states. -/
def CadState.code : CadState → Nat
  | .off => 0
  | .caution => 1
  | .stop => 2

/-- Chime classes. -/
def ChimeClass.code : ChimeClass → Nat
  | .urgent => 0
  | .notice => 1
  | .click => 2

/-- Takeover cell layer states. -/
def CellLayerState.code : CellLayerState → Nat
  | .absent => 0
  | .inUse => 1
  | .rejected => 2

/-! ## Records -/

/-- A field of a record: its offset, its size in bytes and its value. -/
abbrev Field := Nat × Nat × Nat

/-- A signed value in `n` bytes. -/
def signedField (n : Nat) (v : Int) : Nat := (BitVec.ofInt (8 * n) v).toNat

/-- Byte `k` of a record: 0 where no field lies (R176). -/
def fieldByte (fs : List Field) (k : Nat) : Byte :=
  match fs.find? (fun f => decide (f.1 ≤ k) && decide (k < f.1 + f.2.1)) with
  | some f => BitVec.ofNat 8 (f.2.2 / 256 ^ (k - f.1))
  | none => 0

/-- The `n` bytes of a record. -/
def recordBytes (n : Nat) (fs : List Field) : List Byte := (List.range n).map (fieldByte fs)

/-- Consecutive fields of `n` bytes each from offset `o` on. -/
def fieldRun (o n : Nat) : List Nat → List Field
  | [] => []
  | v :: t => (o, n, v) :: fieldRun (o + n) n t

/-- The chain record (R19). -/
def State.chainFields (s : State) (c : ChainId) : List Field :=
  let ch := s.chain c
  [(0, 1, ch.state.code), (1, 1, ch.cause.code), (4, 4, ch.lastSerial.toNat), (8, 8, ch.cursor.getD 0),
   (16, 8, ch.faultAddr), (24, 2, ch.faults), (26, 2, ch.rootReadErrors), (28, 2, ch.statusWriteErrors)]

/-- The header (R173): its update-end count is written apart. -/
def State.headerFields (s : State) (count : Word) : List Field :=
  [(0, 4, count.toNat), (4, 2, s.status.pageErrors), (6, 1, s.settings.cellState.code), (8, 4, s.stateWord.toNat)]

/-- The screen record (R39). Without a current plan the invalid mask is 0 (DESIGN CHOICE, Log 61). -/
def State.screenFields (s : State) (i : ScreenId) : List Field :=
  let sc := s.screens.get i
  s.chainFields (.plan i) ++
  [(32, 8, match sc.plan with | some p => p.addr | none => 0),
   (40, 1, if sc.plan.isNone then Mode.dark.code else sc.mode.code), (41, 1, sc.panel.code), (42, 1, sc.duty),
   (43, 1, boolCode sc.adm.overload), (44, 1, sc.adm.mask.toNat),
   (45, 1, match sc.plan with | some p => p.invalid.toNat | none => 0), (46, 2, sc.overloads), (48, 4, sc.adm.load),
   (52, 2, sc.fetchErrors), (54, 2, sc.glyphClamps)]

/-- The stream record (R80). -/
def State.streamFields (s : State) (x : StreamId) : List Field :=
  let y := s.streams.get x
  s.chainFields (.film x) ++
  [(32, 1, y.state.code), (33, 1, y.req.code), (34, 1, screenCode y.pacing), (35, 1, y.fine), (36, 2, y.interval),
   (38, 2, y.late), (40, 4, y.clock.toNat), (44, 4, signedField 4 y.balance), (48, 4, y.nudgeSerial.toNat),
   (52, 4, match y.shown with | some f => f.pts.toNat | none => 0),
   (56, 8, match y.shown with | some f => f.addr | none => 0), (64, 2, y.starves), (66, 2, y.recErrors)]

/-- A kept alive counter, with bit 7 set when one is kept (R110). Without one, bits 3:0 are 0 too (DESIGN CHOICE, Log
60). -/
def aliveField (k : KindRec) : Nat :=
  match k.alive with
  | some a => 128 + a.toNat
  | none => 0

/-- The vehicle record (R110). The fresh flags count the kinds from 0, STEER at bit 0, and bits 5 to 7 are 0 (Log 56). -/
def State.vehicleFields (s : State) : List Field :=
  let v := s.vehicle
  let k := v.kinds
  let r := s.link
  [(0, 2, signedField 2 v.angle), (2, 2, v.speed), (4, 1, v.direction.code), (5, 1, v.gear.code), (6, 1, v.dim),
   (7, 1, v.dimInUse)] ++
  fieldRun 8 2 v.ranges ++
  fieldRun 16 1 [aliveField k.steer, aliveField k.speed, aliveField k.range, aliveField k.gear, aliveField k.dim] ++
  [(21, 1, boolCode k.steer.fresh + 2 * boolCode k.speed.fresh + 4 * boolCode k.range.fresh +
      8 * boolCode k.gear.fresh + 16 * boolCode k.dim.fresh), (22, 1, v.motion.code)] ++
  fieldRun 24 2 [r.parityErrs, r.framingErrs, r.longs, r.lengths, r.unknowns, r.checks, r.repeats] ++
  fieldRun 38 2 [k.steer.accepted, k.speed.accepted, k.range.accepted, k.gear.accepted, k.dim.accepted]

/-- The reverse and camera record (R130). -/
def State.reverseFields (s : State) : List Field :=
  let m := s.monitor
  let t := s.takeover
  let c := s.camera
  [(0, 1, s.settings.reverse.source.code), (1, 1, m.state.code),
   (2, 1, boolCode m.decision + 2 * boolCode t.linkDecision + 4 * boolCode t.reverse), (3, 1, t.state.code),
   (4, 1, boolCode t.pendingStandby), (6, 2, m.activeLen), (8, 2, m.inactiveLen)] ++
  fieldRun 10 2 [m.glitches, m.shorts, m.dropouts, t.takeovers, t.losts] ++
  [(32, 1, boolCode c.enabled), (33, 1, c.unit.code), (34, 1, c.roles.b0.code), (35, 1, c.roles.b1.code),
   (36, 1, c.roles.b2.code), (37, 1, viewCode t.view), (38, 1, boolCode c.silent)] ++
  fieldRun 40 2 [c.correct, c.dropped, c.lineErrs, c.countErrs, c.truncErrs, c.writeErrs]

/-- A point in 4 bytes. -/
def ptField (p : Pt) : Nat := signedField 2 p.x + 65536 * signedField 2 p.y

/-- The guide section (R145): the points of absent marks are 0. -/
def State.guideFields (s : State) : List Field :=
  let g := s.guide
  let r := g.set
  [(0, 1, g.state.code), (1, 1, g.reason.code),
   (2, 1, match g.table with | some t => t.angles.length | none => 0),
   (3, 1, match g.table with | some t => t.dists.length | none => 0),
   (4, 2, signedField 2 r.angleInUse), (6, 2, signedField 2 r.angleUsed), (8, 1, r.bracket),
   (9, 1, boolCode r.dynamicShown), (10, 2, r.weight), (12, 1, r.zone.code), (13, 1, boolCode r.markerShown),
   (14, 2, r.dist.getD 0), (16, 2, r.markerDist), (20, 4, ptField r.markerLeft), (24, 4, ptField r.markerRight)] ++
  fieldRun 32 4 (match g.table with | some t => t.statLeft.map ptField | none => []) ++
  fieldRun 64 4 (match g.table with | some t => t.statRight.map ptField | none => []) ++
  fieldRun 96 4 (r.dynLeft.map ptField) ++ fieldRun 128 4 (r.dynRight.map ptField)

/-- The source a voice reports: its play, else the cadence, else a handover release of an entry's note (Log 15). -/
def voiceSource (v : Voice) (cad : CadState) : Nat :=
  match v.play with
  | some p => match p.source with | .entry _ => 1 | .fault => 2
  | none => if cad ≠ .off then 3 else if v.note.isSome || v.fade.isSome then 1 else 0

/-- The record of a voice (R163). A play that still waits behind a handover release shows its own address, its plays and its
first lasting note (Log 57); a release without a play shows 0 for all three (Log 15). -/
def voiceFields (o : Nat) (v : Voice) (q : List QEntry) (cad : CadState) : List Field :=
  let addr := match v.play with
    | some p => match p.source with | .entry a => a | .fault => 0
    | none => 0
  let plays := match v.play with
    | some p =>
      match p.source with
      | .entry a => match q.find? (fun e => e.addr == a) with | some e => e.plays | none => 0
      | .fault => 0
    | none => 0
  [(o, 1, voiceSource v cad), (o + 1, 1, match v.play with | some p => p.idx | none => 0), (o + 2, 2, plays),
   (o + 8, 8, addr)]

/-- The slots of a queue from offset `o` on (R163). -/
def queueFields (o : Nat) : List QEntry → List Field
  | [] => []
  | q :: t => (o, 8, q.addr) :: (o + 8, 1, q.cls.code) :: queueFields (o + 16) t

/-- The usable flags of the patterns from number `p` on. -/
def usableFlags : List (Option Pattern) → Nat → Nat
  | [], _ => 0
  | x :: t, p => boolCode x.isSome * 2 ^ p + usableFlags t (p + 1)

/-- The chime record (R163). The fault chime is in use when the setting is not 255 and names a usable pattern (Log 55). -/
def State.chimeFields (s : State) : List Field :=
  let c := s.chime
  s.chainFields .chime ++
  [(32, 4, usableFlags c.library 0), (36, 1, boolCode (c.faultChime? s.settings.chime.faultPattern).isSome),
   (37, 1, boolCode c.pending), (38, 1, boolCode c.duck), (39, 1, c.cad.code), (40, 2, c.period),
   (42, 1, boolCode (c.alert.play.isSome || match c.alert.fade with | some f => !f.cadence | none => false)),
   (43, 1, c.zone.code), (44, 2, c.dist.getD 0), (46, 1, c.alertQ.length), (47, 1, c.uiQ.length)] ++
  voiceFields 48 c.alert c.alertQ c.cad ++ voiceFields 64 c.ui c.uiQ .off ++
  fieldRun 80 2 [c.rejected, c.dropped, c.cancelled, c.faultChimes, c.clips] ++
  queueFields 96 c.alertQ ++ queueFields 160 c.uiQ

/-- The size of the status page (Table 11-1). -/
def pageSize : Nat := 9216

/-- The offset of the update-end count in the page. -/
def endCountAt : Nat := 0x3C

/-- The whole page as copied at one moment (R173), with the update-end count's place left 0. -/
def State.pageImage (s : State) (count : Word) : List Byte :=
  recordBytes 0x40 (s.headerFields count) ++ recordBytes 0x80 (s.screenFields .centre) ++
  recordBytes 0x80 (s.screenFields .left) ++ recordBytes 0x80 (s.screenFields .right) ++
  recordBytes 0x40 [(0, 4, s.settings.budget), (4, 4, s.capLoad)] ++ recordBytes 0x80 (s.streamFields .a) ++
  recordBytes 0x80 (s.streamFields .b) ++ recordBytes 0x80 s.vehicleFields ++ recordBytes 0x80 s.reverseFields ++
  recordBytes 0x100 s.guideFields ++ recordBytes 0x200 s.chimeFields ++ List.replicate (pageSize - 0x700) 0

/-! ## The status writer (R173) -/

/-- The address of the status page. -/
def State.pageAddr (s : State) : Nat := s.book + 0x1C00

/-- A word of the page in host memory. -/
def State.writePageWord (s : State) (o v : Nat) : State := { s with mem := Mem.writeLE s.mem (s.pageAddr + o) 4 v }

/-- An update begins (R173, steps 1 and 2): the copy is taken, the count increased and written as the update-begin
count. -/
def State.beginUpdate (s : State) : State :=
  let n := s.status.count + 1
  let page := s.pageImage n
  (s.modStatus (fun w => { w with count := n, update := some { count := n, page := page, pos := 4 } })).writePageWord
    0 n.toNat

/-- An occasion for an update (R173): none is made while FROZEN or while one is under way. -/
def State.occasion (s : State) : State :=
  if s.status.frozen || s.status.update.isSome then s else s.beginUpdate

/-- A run of bytes read little-endian. -/
def bytesNat : List Byte → Nat
  | [] => 0
  | b :: t => b.toNat + 256 * bytesNat t

/-- The word of a page at an offset. -/
def pageWord (p : List Byte) (o : Nat) : Nat := bytesNat (p.drop o |>.take 4)

/-- The status writer writes the next word of the page under way; the update-end count's word is passed over. -/
def State.drainWord (s : State) : State :=
  match s.status.update with
  | none => s
  | some u =>
    if u.pos < pageSize then
      let s := s.modStatus (fun w => { w with update := some { u with pos := u.pos + 4 } })
      if u.pos = endCountAt then s else s.writePageWord u.pos (pageWord u.page u.pos)
    else s

/-- The status writer writes `n` words. -/
def State.drainWords (s : State) : Nat → State
  | 0 => s
  | n + 1 => s.drainWord.drainWords n

/-- The words of the page under way still to be written. -/
def State.wordsLeft (s : State) : Nat :=
  match s.status.update with
  | none => 0
  | some u => (pageSize - u.pos) / 4

/-- FROZEN is set and the freeze timer started (R174). -/
def StatusWriter.freeze (w : StatusWriter) : StatusWriter := { w with frozen := true, freezeOn := true, freezeWaiting := false }

/-- The update under way is over: none is under way, and a waiting freeze request takes effect (R174). -/
def StatusWriter.endUpdate (w : StatusWriter) : StatusWriter :=
  if w.freezeWaiting then ({ w with update := none } : StatusWriter).freeze else { w with update := none }

/-- The update under way is completed: the rest of the page, then the update-end count (R173, step 4). -/
def State.completeUpdate (s : State) : State :=
  match s.status.update with
  | none => s
  | some u =>
    ((s.drainWords s.wordsLeft).writePageWord endCountAt u.count.toNat).modStatus StatusWriter.endUpdate

/-- The update under way ends at a write error: counted, its update-end count not written (R173). -/
def StatusWriter.failUpdate (w : StatusWriter) : StatusWriter :=
  ({ w with pageErrors := bump w.pageErrors } : StatusWriter).endUpdate

/-- The first of the words still to be written whose write fails, counted from the next one; the update-end count's own
word is passed over. -/
def State.failingWord (s : State) (writes : List Nat) : Option Nat :=
  match s.status.update with
  | none => none
  | some u =>
    (List.range s.wordsLeft).find? (fun k =>
      decide (u.pos + 4 * k ≠ endCountAt) && touches writes (s.pageAddr + (u.pos + 4 * k)) 4)

/-- The update under way is written to its end where writes to the addresses `writes` fail (R173): the first failing
write ends it, with the words before it written (Log 39); the update-end count comes last. -/
def State.finishUpdate (s : State) (writes : List Nat) : State :=
  if s.status.update.isNone then s
  else
    match s.failingWord writes with
    | some k => (s.drainWords k).modStatus StatusWriter.failUpdate
    | none =>
      if touches writes (s.pageAddr + endCountAt) 4 then (s.drainWords s.wordsLeft).modStatus StatusWriter.failUpdate
      else s.completeUpdate

/-- An update begins where writes to the addresses `writes` fail: one that fails at its update-begin count ends there. -/
def State.beginUpdateWith (s : State) (writes : List Nat) : State :=
  if touches writes s.pageAddr 4 then s.modStatus (fun w => ({ w with count := w.count + 1 } : StatusWriter).failUpdate)
  else s.beginUpdate

/-! ## Commands -/

/-- STATUS_TIMER_EXPIRY (R173): the running status timer expires. -/
def execStatusTimerExpiry (s : State) : Host.Outcome State Fault Refusal :=
  if s.status.timerOn then .next s.occasion else .next s

/-- STATUS_UPDATE_END (R173): the update under way is completed. -/
def execStatusUpdateEnd (s : State) : Host.Outcome State Fault Refusal := .next s.completeUpdate

/-- PAGE_WRITE_ERROR (R173): the update under way ends at once, its update-end count not written, and is counted. Memory
stays as the update's writes so far left it (Log 39). -/
def execPageWriteError (s : State) : Host.Outcome State Fault Refusal :=
  match s.status.update with
  | none => .next s
  | some _ => .next (s.modStatus StatusWriter.failUpdate)

/-- A freeze request (R174): at once, or at the end of the update under way. -/
def StatusWriter.request (w : StatusWriter) : StatusWriter :=
  if w.update.isSome then { w with freezeWaiting := true } else w.freeze

/-- The part is in RUN, STANDBY or STOPPING, where FREEZE acts (R174). -/
def RunState.active : RunState → Bool
  | .run => true
  | .standby => true
  | .stopping => true
  | .off => false
  | .starting => false

/-- CTRL.FREEZE written `v` (R165, R174): a change to 1 is a freeze request while the expired mark is clear; a change to
0 clears FROZEN, the timer and the mark and withdraws a waiting request. -/
def State.writeFreeze (s : State) (v : Bool) : State :=
  if s.regs.freeze = v then s
  else
    let s := { s with regs := { s.regs with freeze := v } }
    if s.runState.active then
      if v then if s.status.expired then s else s.modStatus StatusWriter.request
      else s.modStatus (fun w => { w with frozen := false, freezeOn := false, expired := false, freezeWaiting := false })
    else s

/-- FREEZE_REQUEST (R174). -/
def execFreezeRequest (s : State) : Host.Outcome State Fault Refusal := .next (s.writeFreeze true)

/-- FREEZE_CLEAR (R174). -/
def execFreezeClear (s : State) : Host.Outcome State Fault Refusal := .next (s.writeFreeze false)

/-- FREEZE_TIMER_EXPIRY (R174): the running freeze timer expires. -/
def execFreezeTimerExpiry (s : State) : Host.Outcome State Fault Refusal :=
  if s.status.freezeOn then
    .next ((s.modStatus (fun w => { w with frozen := false, freezeOn := false, expired := true })).raise .freezeExpired)
  else .next s

end Sys2Proof.Machine
end

