-- ==== Sys2Proof/Machine/Window.lean ====
section
/-! DEFINITION. The register window (Chapter 10): register writes, start, stop and the resets. -/

namespace Sys2Proof.Machine

/-- `s` with its registers changed by `f`. -/
def State.modRegs (s : State) (f : Regs → Regs) : State := { s with regs := f s.regs }

/-! ## The judgement of the book (R168) -/

/-- The size of the cabin book (section 1.1). -/
def bookSize : Nat := 16384

/-- The book address is a multiple of 4 KiB and the book's last byte lies below 2^64 (R168, step 1). -/
def bookAligned (b : Nat) : Bool := decide (b % 4096 = 0) && decide (b + bookSize ≤ 2 ^ 64)

/-- The node and mark counts of the guide table at `g`. -/
def guideCounts (m : Mem) (g : Nat) : Nat × Nat := (Mem.readLE m g 2, Mem.readLE m (g + 2) 2)

/-- Both counts lie within their ranges (R131). -/
def countsOk (n k : Nat) : Bool := inRange n 2 17 && inRange k 2 8

/-- A read of the guide table's used parts fails (R131): the counts first, and the rest only when both are in range. -/
def guideReadFails (m : Mem) (g : Nat) (reads : List Nat) : Bool :=
  let n := (guideCounts m g).1
  let k := (guideCounts m g).2
  touches reads g 4 ||
  (countsOk n k &&
    (touches reads (g + 0x008) (2 * n) || touches reads (g + 0x030) (2 * k) || touches reads (g + 0x040) k ||
     (List.range n).any (fun j => touches reads (g + 0x050 + 32 * j) (4 * k) ||
       touches reads (g + 0x270 + 32 * j) (4 * k)) ||
     touches reads (g + 0x490) (4 * k) || touches reads (g + 0x4B0) (4 * k)))

/-- A read of the six root serials or of the streams' control fields fails (R168, step 9). -/
def State.rootReadFails (s : State) (reads : List Nat) : Bool :=
  [ChainId.plan .centre, .plan .left, .plan .right, .chime].any (fun c => touches reads (s.rootAddr c + 8) 4) ||
  [StreamId.a, .b].any (fun x => touches reads (s.rootAddr (.film x) + 8) 16)

/-- The address of the guide table (Table 11-1). -/
def State.guideAddr (s : State) : Nat := s.book + 0x1700

/-- Steps 7 to 9 of the judgement (R168): the reads of the library, the guide table and the roots. -/
def State.judgeReads (s : State) (e : LinkErrs) : StartResult × Nat :=
  if touches e.reads (s.book + 0x500) 4608 || guideReadFails s.bookCopy s.guideAddr e.reads || s.rootReadFails e.reads then
    (.memoryError, 0)
  else (.ok, 0)

/-- Steps 4 to 9 of the judgement (R168), on the settings record as copied; the roots are read as they stand (Log 40). -/
def State.judgeSettings (s : State) (e : LinkErrs) : StartResult × Nat :=
  let st := readSettings s.bookCopy s.book
  match firstFail (windowChecks st) with
  | some n => (.badSettings, n)
  | none =>
    if !st.inWindow s.book bookSize then (.badBookAddress, 0)
    else
      match firstFail (fieldChecks s.bookCopy s.book st) with
      | some n => (.badSettings, n)
      | none => s.judgeReads e

/-- The judgement of the cabin book from its copy (R1, R168): the result and the detail of the first step that fails, or OK. -/
def State.judgeStart (s : State) (e : LinkErrs) : StartResult × Nat :=
  if !bookAligned s.book then (.badBookAddress, 0)
  else if touches e.reads s.book 4 then (.memoryError, 0)
  else if Mem.readLE s.bookCopy s.book 4 ≠ 1 then (.badFormat, 0)
  else if touches e.reads (s.book + 0x40) 960 then (.memoryError, 0)
  else s.judgeSettings e

/-! ## The entry into RUN from STARTING (R169) -/

/-- A chain at start (R18): EMPTY, its root serial the last seen serial. -/
def State.startChain (s : State) (c : ChainId) : Chain :=
  { Chain.reset with lastSerial := BitVec.ofNat 32 (Mem.readLE s.mem (s.rootAddr c + 8) 4) }

/-- Every chain at start. -/
def State.startChains (s : State) : Chains :=
  { plans := ⟨s.startChain (.plan .centre), s.startChain (.plan .left), s.startChain (.plan .right)⟩,
    films := ⟨s.startChain (.film .a), s.startChain (.film .b)⟩, chime := s.startChain .chime }

/-- A stream at start (R70, R79): pacing screen, interval and nudge serial as read, the requested state STOP. -/
def State.startStream (s : State) (x : StreamId) (home : ScreenId) : Stream :=
  let c := readControls s.mem (s.rootAddr (.film x))
  let y := (Stream.reset home).takeControls c 0
  { y with req := .stop, nudgeSerial := c.serial, pacedAfter := none,
           recErrors := bumpIf (!inRange c.interval 1000 9000) (bumpIf c.pacing.isNone 0) }

/-- The guide engine at start (R131 to R133). -/
def State.startGuide (s : State) (st : Settings) : Guide :=
  let n := (guideCounts s.bookCopy s.guideAddr).1
  let k := (guideCounts s.bookCopy s.guideAddr).2
  let t := readGuideTable s.bookCopy s.guideAddr n k
  Guide.started (judgeGuide n k t) t st.guide.enable

/-- Every block at its start values, at the entry into RUN (R169 and the state table of each chapter). -/
def State.startBlocks (s : State) : State :=
  let st := readSettings s.bookCopy s.book
  { s with
    runState := .run
    settings := st
    chains := s.startChains
    holds := []
    screens := ⟨Screen.reset.startGen st.screens.centre, Screen.reset.startGen st.screens.left,
                Screen.reset.startGen st.screens.right⟩
    capLoad := 0
    blinkOn := true
    blinkRunning := true
    streams := ⟨s.startStream .a .left, s.startStream .b .right⟩
    link := { Receiver.reset with on := true, waitIdle := true }
    vehicle := Vehicle.reset
    monitor := Monitor.started (s.linePin != st.reverse.activeLow) st.reverse
    takeover := Takeover.reset
    camera := Camera.reset
    guide := s.startGuide st
    chime := { Chime.reset with library := readLibrary s.bookCopy s.book, tickOn := true }
    status := { StatusWriter.reset with timerOn := true } }

/-- The entry into RUN (R169): the blocks' start values, the start result, GUIDE_OFF, and capture with warm on. -/
def State.enterRun (s : State) : State :=
  let s := s.startBlocks
  let rejected := decide (s.guide.state = .tableRejected)
  ((s.modRegs (fun r => { r with startResult := .ok, startDetail := 0, guideRejected := rejected })).raiseIf rejected
    .guideOff).judgeCapture

/-! ## Stop (R171) -/

/-- The entry into STOPPING (R171, R129): receiver, monitor and blink timer stop, freshness timers stop, the takeover
state becomes NORMAL, capture is disabled, the chime engine falls silent, and each screen's refresh becomes its last. The
monitor's state and the line, link and reverse decisions stay as they stand (Log 36). -/
def State.enterStopping (s : State) : State :=
  let s := { s with runState := .stopping, regs := { s.regs with run := false } }
  let s := s.modLink (fun r => { r.clear with on := false, waitIdle := false })
  let s := s.modVehicle (fun v => { v with kinds := v.kinds.map (fun k => { k with timer := none }) })
  let s := { s with monitor := { s.monitor with on := false, settle := none }, blinkRunning := false, blinkOn := true }
  let s := if s.takeover.state = .normal then s else s.setTakeover .normal
  let s := s.modTakeover (fun t => { t with pendingStandby := false, linger := none })
  let s := s.chimeStop
  { s with screens := s.screens.map Screen.leaveRun }.disableCapture true

/-- One word of an entry written at the end of a stop, `bad` telling that the write fails (R16, R18): the failure is
counted and the word is then free (Log 6). -/
def State.stopWrite (s : State) (h : Hold) (off v : Nat) (bad : Bool) : State :=
  if bad then
    ({ s with mem := Mem.writeLE s.mem (h.addr + off) 4 (Config.lostWord s.freeIx).toNat,
              freeIx := s.freeIx + 1 }).statusWriteFailed h.chain h.addr
  else { s with mem := Mem.writeLE s.mem (h.addr + off) 4 v }

/-- Every hold on an entry ends at stop (R18): its report word, its final state, and the family's notice, which is raised
whether or not the final write fails (Log 49). -/
def State.stopEntry (e : LinkErrs) (s : State) (h : Hold) : State :=
  let s := s.stopWrite h 4 (reportWord h.count h.late).toNat (touches e.writes (h.addr + 4) 4)
  let s := s.stopWrite h 0 h.finalWord.toNat (touches e.writes h.addr 4)
  (s.raise (family h.chain)).dropHold h.chain h.addr

/-- Every held entry retires (R18), in the order of the hold records (Log 50). -/
def State.stopHolds (s : State) (e : LinkErrs) : State := s.holds.foldl (State.stopEntry e) s

/-- A chain after stop (R18). -/
def Chain.stopped (c : Chain) : Chain := { c with state := .empty, cursor := none }

/-- Chains, screens and streams after stop (R18, R38, R79); STREAM is raised when a stream's state changes (Log 17). -/
def State.stopBlocks (s : State) : State :=
  let moved := decide (s.streams.a.state ≠ .idle) || decide (s.streams.b.state ≠ .idle)
  ({ s with
    chains := { plans := s.chains.plans.map Chain.stopped,
                films := ⟨s.chains.films.a.stopped, s.chains.films.b.stopped⟩, chime := s.chains.chime.stopped }
    holds := []
    screens := s.screens.map (fun sc => { sc with plan := none, mode := .dark, adm := Admission.reset })
    streams := ⟨s.streams.a.clear .idle, s.streams.b.clear .idle⟩ }).raiseIf moved .stream

/-- The last update of a stop (R171, R173): an update under way is completed in its place (Log 16), and none is made
while FROZEN. A write error ends it. -/
def State.lastUpdate (s : State) (e : LinkErrs) : State :=
  if s.status.update.isSome then s.finishUpdate e.writes
  else if s.status.frozen then s
  else (s.beginUpdateWith e.writes).finishUpdate e.writes

/-- The entry into OFF at the end of a stop (R171, R174). -/
def State.enterOff (s : State) : State :=
  { s with runState := .off }.modStatus
    (fun w => { w with timerOn := false, frozen := false, freezeOn := false, expired := false, freezeWaiting := false })

/-- STOP_COMPLETED (R171): in STOPPING, once no refresh is in progress. -/
def execStopCompleted (e : LinkErrs) (s : State) : Host.Outcome State Fault Refusal :=
  if s.runState = .stopping ∧ s.noRefresh then .next (((s.stopHolds e).stopBlocks.lastUpdate e).enterOff) else .next s

/-! ## CTRL.RUN (R165, R168) -/

/-- The address lies in the header, the settings record, the chime library or the guide table of the book at `b`
(Tables 1-1 and 11-1). -/
def inCopied (b a : Nat) : Bool :=
  (decide (b ≤ a) && decide (a < b + 0x400)) || (decide (b + 0x500 ≤ a) && decide (a < b + 0x1C00))

/-- The entry into STARTING (R166, R168): the book's address is taken from BOOKADDR, and the four regions of the book
that are read once are copied as they stand, so that a later host write takes effect at the next start (R1, Log 40). -/
def State.enterStarting (s : State) : State :=
  { s.modRegs (fun r => { r with run := true, startResult := .ok, startDetail := 0, guideRejected := false }) with
    runState := .starting, book := s.regs.bookAddr.toNat,
    bookCopy := s.mem.filter (fun c => inCopied s.regs.bookAddr.toNat c.1) }

/-- CTRL.RUN written `v` (R165). -/
def State.writeRun (s : State) (v : Bool) : State :=
  if s.regs.run = v then s
  else
    match s.runState, v with
    | .off, true => s.enterStarting
    | .starting, _ => s.modRegs (fun r => { r with run := v })
    | .run, false => s.enterStopping
    | .standby, false => s.enterStopping
    | _, _ => s

/-- START (R168). -/
def execStart (s : State) : Host.Outcome State Fault Refusal := .next (s.writeRun true)

/-- STOP (R171). -/
def execStop (s : State) : Host.Outcome State Fault Refusal := .next (s.writeRun false)

/-- The held level bits and the first update at the end of STARTING (R169): FREEZE before the first update, then a
standby request; RUN 0 stops the part, which is then no longer in RUN for a standby request. -/
def State.actOnHeld (s : State) : State :=
  let s := if s.regs.freeze then s.modStatus StatusWriter.freeze else s
  let s := s.occasion
  if !s.regs.run then s.enterStopping
  else if s.regs.standby then s.requestStandby
  else s

/-- START_COMPLETED (R169): in STARTING, when the judgement of the book finds no failure. -/
def execStartCompleted (e : LinkErrs) (s : State) : Host.Outcome State Fault Refusal :=
  if s.runState = .starting ∧ (s.judgeStart e).1 = .ok then .next s.enterRun.actOnHeld else .next s

/-- The refusal of a start with a result and a detail (R169). -/
def State.refuse (s : State) (r : StartResult × Nat) : State :=
  { s.modRegs (fun g => { g with run := false, startResult := r.1, startDetail := r.2 }) with runState := .off }

/-- START_REFUSED (R169): in STARTING, when the judgement of the book finds a failure. -/
def execStartRefused (e : LinkErrs) (s : State) : Host.Outcome State Fault Refusal :=
  if s.runState = .starting ∧ (s.judgeStart e).1 ≠ .ok then .next (s.refuse (s.judgeStart e)) else .next s

/-! ## Resets (R172) -/

/-- Every register and block at its reset value; host memory, the commands waiting, the level of the reverse line and
the model's count of free values stand as they are (R172, Logs 6 and 30). -/
def State.resetAll (s : State) : State :=
  { State.reset with pending := s.pending, mem := s.mem, linePin := s.linePin, freeIx := s.freeIx }

/-- POWER_ON_RESET (R172). -/
def execPowerOnReset (s : State) : Host.Outcome State Fault Refusal := .next s.resetAll

/-- SOFT_RESET (R172). -/
def execSoftReset (s : State) : Host.Outcome State Fault Refusal := .next s.resetAll

/-! ## The other register writes (R164, R165, R167, R176) -/

/-- BOOKADDR after a write (R164). -/
def bookAddrAfter (old : BitVec 64) : BookWrite → BitVec 64
  | .whole v => v
  | .low v => BitVec.ofNat 64 (old.toNat / 2 ^ 32 * 2 ^ 32 + v.toNat)
  | .high v => BitVec.ofNat 64 (v.toNat * 2 ^ 32 + old.toNat % 2 ^ 32)

/-- A write to BOOKADDR is taken in OFF and ignored in every other run state (R164). -/
def State.writeBookAddr (s : State) (w : BookWrite) : State :=
  if s.runState = .off then s.modRegs (fun r => { r with bookAddr := bookAddrAfter r.bookAddr w }) else s

/-- BOOKADDR_WRITE (R164). -/
def execBookaddrWrite (w : BookWrite) (s : State) : Host.Outcome State Fault Refusal := .next (s.writeBookAddr w)

/-- CTRL.IRQ_ENABLE written `v` (R165). -/
def State.writeIrqEnable (s : State) (v : Bool) : State := s.modRegs (fun r => { r with irqEnable := v })

/-- IRQ_ENABLE (R167). -/
def execIrqEnable (v : Bool) (s : State) : Host.Outcome State Fault Refusal := .next (s.writeIrqEnable v)

/-- FORCE (R165): FORCED is raised in every run state. -/
def execForce (s : State) : Host.Outcome State Fault Refusal := .next (s.raise .forced)

/-- A write to NOTICE clears the flags written 1 (R167). -/
def State.clearNotices (s : State) (v : Word) : State := s.modRegs (fun r => { r with notice := r.notice &&& ~~~v })

/-- NOTICE_CLEAR (R167). -/
def execNoticeClear (v : Word) (s : State) : Host.Outcome State Fault Refusal := .next (s.clearNotices v)

/-- A write to NOTICE_MASK; unassigned bits ignore writes (R167, R176). -/
def State.writeMask (s : State) (v : Word) : State := s.modRegs (fun r => { r with noticeMask := v &&& noticeBits })

/-- NOTICE_MASK_WRITE (R167). -/
def execNoticeMaskWrite (v : Word) (s : State) : Host.Outcome State Fault Refusal := .next (s.writeMask v)

/-- A write of CTRL as a whole (R165, Log 8): SOFT_RESET alone when its bit is 1, else the bits in R165's order. -/
def State.writeCtrl (s : State) (v : Nat) : State :=
  if bitOf v 31 then s.resetAll
  else
    let s := s.writeIrqEnable (bitOf v 3)
    let s := s.raiseIf (bitOf v 9) .forced
    let s := if bitOf v 8 then s.dismiss else s
    ((s.writeRun (bitOf v 0)).writeStandby (bitOf v 1)).writeFreeze (bitOf v 2)

/-- A write of `width` bytes at `off` of the BAR (R164, R176): 4-byte accesses at the registers' own offsets, and
BOOKADDR whole; every other write is ignored. -/
def State.writeReg (s : State) (off width : Nat) (v : BitVec 64) : State :=
  let w : Word := BitVec.ofNat 32 v.toNat
  if width = 8 ∧ off = 0x00 then s.writeBookAddr (.whole v)
  else if width = 4 then
    if off = 0x00 then s.writeBookAddr (.low w)
    else if off = 0x04 then s.writeBookAddr (.high w)
    else if off = 0x08 then s.writeCtrl w.toNat
    else if off = 0x10 then s.clearNotices w
    else if off = 0x14 then s.writeMask w
    else s
  else s

/-- REGISTER_WRITE (R176). -/
def execRegisterWrite (off width : Nat) (v : BitVec 64) (s : State) : Host.Outcome State Fault Refusal :=
  .next (s.writeReg off width v)

end Sys2Proof.Machine
end

