-- ==== Sys2Proof/Machine/Dispatch.lean ====
section
/-! DEFINITION. One arm per command: a direct call of its meaning. -/

namespace Sys2Proof.Machine

/-- The effect of a command on everything but the queue of waiting commands. -/
def exec (i : Instr) (s : State) : Host.Outcome State Fault Refusal :=
  match i with
  | .powerOnReset => Sys2Proof.Machine.execPowerOnReset s
  | .softReset => Sys2Proof.Machine.execSoftReset s
  | .bookaddrWrite w => Sys2Proof.Machine.execBookaddrWrite w s
  | .start => Sys2Proof.Machine.execStart s
  | .startCompleted e => Sys2Proof.Machine.execStartCompleted e s
  | .startRefused e => Sys2Proof.Machine.execStartRefused e s
  | .stop => Sys2Proof.Machine.execStop s
  | .stopCompleted e => Sys2Proof.Machine.execStopCompleted e s
  | .standbyRequest => Sys2Proof.Machine.execStandbyRequest s
  | .standbyReturn => Sys2Proof.Machine.execStandbyReturn s
  | .freezeRequest => Sys2Proof.Machine.execFreezeRequest s
  | .freezeClear => Sys2Proof.Machine.execFreezeClear s
  | .irqEnable v => Sys2Proof.Machine.execIrqEnable v s
  | .dismiss => Sys2Proof.Machine.execDismiss s
  | .force => Sys2Proof.Machine.execForce s
  | .noticeClear v => Sys2Proof.Machine.execNoticeClear v s
  | .noticeMaskWrite v => Sys2Proof.Machine.execNoticeMaskWrite v s
  | .registerWrite off width v => Sys2Proof.Machine.execRegisterWrite off width v s
  | .frameStart scr e => Sys2Proof.Machine.execFrameStart scr e s
  | .refreshCompleted scr => Sys2Proof.Machine.execRefreshCompleted scr s
  | .fetchError scr x => Sys2Proof.Machine.execFetchError scr x s
  | .statusWriteError c addr w => Sys2Proof.Machine.execStatusWriteError c addr w s
  | .statusTimerExpiry => Sys2Proof.Machine.execStatusTimerExpiry s
  | .statusUpdateEnd => Sys2Proof.Machine.execStatusUpdateEnd s
  | .pageWriteError => Sys2Proof.Machine.execPageWriteError s
  | .freezeTimerExpiry => Sys2Proof.Machine.execFreezeTimerExpiry s
  | .messageBoundary => Sys2Proof.Machine.execMessageBoundary s
  | .freshnessTimerExpiry k => Sys2Proof.Machine.execFreshnessTimerExpiry k s
  | .reverseLineActive ms => Sys2Proof.Machine.execReverseLineActive ms s
  | .reverseLineInactive ms => Sys2Proof.Machine.execReverseLineInactive ms s
  | .settleTimerExpiry => Sys2Proof.Machine.execSettleTimerExpiry s
  | .lingerTimerExpiry => Sys2Proof.Machine.execLingerTimerExpiry s
  | .startLimitExpiry => Sys2Proof.Machine.execStartLimitExpiry s
  | .silenceTimerExpiry => Sys2Proof.Machine.execSilenceTimerExpiry s
  | .cameraFrameStartMarker => Sys2Proof.Machine.execCameraFrameStartMarker s
  | .cameraLineMarker => Sys2Proof.Machine.execCameraLineMarker s
  | .cameraPixel y c => Sys2Proof.Machine.execCameraPixel y c s
  | .cameraFrameEndMarker => Sys2Proof.Machine.execCameraFrameEndMarker s
  | .cameraWriteError => Sys2Proof.Machine.execCameraWriteError s
  | .chimeTick e => Sys2Proof.Machine.execChimeTick e s
  | .audioSampleEvent => Sys2Proof.Machine.execAudioSampleEvent s
  | .blinkPhaseChange => Sys2Proof.Machine.execBlinkPhaseChange s
  | .duckTimerExpiry => Sys2Proof.Machine.execDuckTimerExpiry s
  | .vehicleLinkByte b => Sys2Proof.Machine.execVehicleLinkByte b s
  | .receiverIdleWaitEnd => Sys2Proof.Machine.execReceiverIdleWaitEnd s
  | .pwmPeriodStart scr => Sys2Proof.Machine.execPwmPeriodStart scr s

end Sys2Proof.Machine
end

