-- ==== Sys2Proof/Machine/Step.lean ====
section
/-! DEFINITION. One step: the command at the front of the queue, or the progress the pipes and the status writer make
while no command waits. -/

namespace Sys2Proof.Machine

/-- What goes on while no command waits (DESIGN CHOICE, Log 4): each screen's refresh in progress sends its next pixel
(R41), and the status writer writes the next word of a page update under way (R173). In a machine at rest nothing
changes. -/
def State.idle (s : State) : State :=
  (((s.sendPixel .centre).sendPixel .left).sendPixel .right).drainWord

/-- One step of the block: the command at the front of the queue is taken and run with the queue's rest. -/
def step (s : State) : Host.Outcome State Fault Refusal :=
  match s.pending with
  | [] => .next s.idle
  | c :: rest => exec c { s with pending := rest }

/-- `s` with the command a word spells put at the front of its queue; `s` where the word spells none. The table gives
no row any bits, so no word spells a command (Log 28). -/
def State.withFetchWord (s : State) (nbits w : Nat) : State :=
  match decodeTableWord nbits w with
  | some c => { s with pending := c :: s.pending }
  | none => s

end Sys2Proof.Machine
end

