-- ==== Sys2Proof/Safety.lean ====
section
/-! DEFINITION. The terms in which the statements are made: what a safe run is, which bytes a step may write, which
commands are resets, and the invariants of the blocks. -/

namespace Sys2Proof

/-- A step from `s` answers a next state: no command ends in a fault or a refusal. -/
def Completes (o : Host.Outcome Machine.State Machine.Fault Machine.Refusal) : Prop := ∃ t, o = .next t

/-- The command may reset the part: the two resets, and a register write, which may carry CTRL.SOFT_RESET (R172). -/
def Instr.mayReset : Instr → Bool
  | .powerOnReset => true
  | .softReset => true
  | .registerWrite _ _ _ => true
  | _ => false

namespace Machine

/-! ## The bytes a step may write -/

/-- The eight bytes of status and report word of the entry at `n` all lie in `P`. -/
def Header (P : Nat → Prop) (n : Nat) : Prop := ∀ x, n ≤ x → x < n + 8 → P x

/-- What is fixed from one start or register write to the next: the copies of the book, the book's address, the
registers that only the host writes, and the queue. -/
structure Fixed where
  settings : Settings
  book : Nat
  copy : Mem
  library : List (Option Pattern)
  table : Option GuideTable
  guide : GuideState
  reason : GuideReason
  bookAddr : BitVec 64
  mask : Word
  irq : Bool
  result : StartResult
  detail : Nat
  rejected : Bool
  pending : List Instr
  linePin : Bool

/-- The fixed part of a state. -/
def State.fixed (s : State) : Fixed :=
  { settings := s.settings, book := s.book, copy := s.bookCopy, library := s.chime.library, table := s.guide.table, guide := s.guide.state,
    reason := s.guide.reason, bookAddr := s.regs.bookAddr, mask := s.regs.noticeMask, irq := s.regs.irqEnable,
    result := s.regs.startResult, detail := s.regs.startDetail, rejected := s.regs.guideRejected,
    pending := s.pending, linePin := s.linePin }

/-- The entries a walk reached: those handed, and the faulty one it stopped at. -/
def reached {β : Type} (hs : List (Handed β)) (w : Option WalkEnd) : List Nat :=
  hs.map (·.addr) ++ match w with | some (.fault x _) => [x] | _ => []

/-- The entries a plan advance of screen `i` reaches. -/
def State.planReached (s : State) (i : ScreenId) (e : LinkErrs) : List Nat :=
  let r := (s.checkSerial (.plan i) e).2.pollWalk readPlan (.plan i) e
  reached r.1 r.2.1

/-- The entries the work of a stream that is not IDLE reaches. -/
def State.filmReached (s : State) (x : StreamId) (e : LinkErrs) : List Nat :=
  let q := s.filmSerial x e
  let r := q.2.filmPoll x q.1 e
  reached r.1 r.2.1

/-- The state in which the work of a stream that is not IDLE begins: control fields taken, an IDLE stream PRIMING. -/
def State.filmBegun (s : State) (x : StreamId) (t : Nat) : State :=
  let s := s.modStream x (fun y => y.takeControls (readControls s.mem (s.rootAddr (.film x))) t)
  if (s.streams.get x).state = .idle then s.modStream x (fun y => y.clear .priming) else s

/-- The entries a pacing refresh of stream `x` reaches. -/
def State.paceReached (s : State) (x : StreamId) (t : Nat) (e : LinkErrs) : List Nat :=
  (s.filmBegun x t).filmReached x e

/-- The entries the pacing refreshes at a frame start of screen `i` reach. -/
def State.pacesReached (s : State) (i : ScreenId) (t : Nat) (e : LinkErrs) : List Nat :=
  let p := (s.screenSettings i).period
  let s' := if (s.streams.get .a).pacedBy i t then s.pace .a t p e else s
  s.paceReached .a t e ++ s'.paceReached .b t e

/-- The state of a frame start of screen `i` once its admission is made. -/
def State.admitted (s : State) (i : ScreenId) (e : LinkErrs) : State :=
  (((((s.finishRefresh i).planAdvance i e).atCentre i State.judgeCapture)).settleMode i).admission i

/-- The entries a frame start of screen `i` reaches. -/
def State.frameReached (s : State) (i : ScreenId) (e : LinkErrs) : List Nat :=
  (s.finishRefresh i).planReached i e ++ (s.admitted i e).pacesReached i (s.screens.get i).nextStart e

/-- The entries the chime chain's polling event reaches. -/
def State.chimeReached (s : State) (e : LinkErrs) : List Nat :=
  let r := (s.checkSerial .chime e).2.pollWalk readChimeEntry .chime e
  reached r.1 r.2.1

/-- Every byte of the status page lies in `P`. -/
def State.PageIn (s : State) (P : Nat → Prop) : Prop := ∀ x, s.book + 0x1C00 ≤ x → x < s.book + 0x1C00 + 9216 → P x

/-- A page is written in whole words: an update's position is a multiple of 4. -/
def StatusWriter.Aligned (w : StatusWriter) : Prop := ∀ u, w.update = some u → u.pos % 4 = 0

/-! ## Held entries -/

/-- Every entry held lies on a multiple of 16 with its first 16 bytes below 2^64 (R10). -/
def State.HoldsPlaced (s : State) : Prop := ∀ h ∈ s.holds, h.addr % 16 = 0 ∧ h.addr + 16 ≤ 2 ^ 64

/-- The status word last written of an entry held is the one its holds call for (R14). -/
def State.HoldsWritten (s : State) : Prop := ∀ h ∈ s.holds, h.written = some h.heldWord

/-! ## What an event does -/

/-- How many buffers hold a role. -/
def roleCount (p : PerBuffer Role) (r : Role) : Nat :=
  (if p.b0 = r then 1 else 0) + (if p.b1 = r then 1 else 0) + (if p.b2 = r then 1 else 0)

/-- Capture becomes enabled, from `s` to `t` (R122): the unit goes to SEEKING with no frame in progress, the lowest-numbered
FREE buffer to CAPTURING and every other keeps its role, the camera is silent with its timer stopped, the load is counted,
and the view status is WAIT with the start limit timer started; the capture counters stand. -/
def CaptureStarts (s t : State) : Prop :=
  let c := s.camera
  let st := s.settings.camera
  t.camera = { c with enabled := true, unit := .seeking, lines := 0, inLine := false, pixels := 0, error := none,
                      writeStopped := false, roles := t.camera.roles, silent := true } ∧
  (∀ n, n < 3 → t.camera.roles.get n =
    (if c.roles.get n = .free ∧ ∀ j, j < n → c.roles.get j ≠ .free then .capturing else c.roles.get n)) ∧
  t.capLoad = (st.width * st.height * 2 * 90 + st.period - 1) / st.period ∧
  t.takeover.view = some .wait ∧ t.takeover.startLimit = some st.startLimit ∧ t.takeover.silence = none ∧
  (s.takeover.view ≠ some .wait → t.regs.notice.getLsbD 4 = true)

/-- Capture becomes disabled, from `s` to `t` (R123): the unit goes to IDLE, the frame in progress is given up without a
count, CAPTURING and READY become FREE, a SHOWN buffer keeps its role unless it is `freed` at once, the camera is silent, no
load is counted, and the view status and its timers end; the capture counters stand. -/
def CaptureStops (s t : State) (freed : Bool) : Prop :=
  let c := s.camera
  t.camera = { c with enabled := false, unit := .idle, lines := 0, inLine := false, pixels := 0, error := none,
                      writeStopped := false, roles := t.camera.roles, silent := true } ∧
  (∀ n, n < 3 → roleCount c.roles .capturing ≤ 1 → roleCount c.roles .ready ≤ 1 → roleCount c.roles .shown ≤ 1 →
    t.camera.roles.get n = (if c.roles.get n = .shown ∧ freed = false then .shown else .free)) ∧
  t.capLoad = 0 ∧ t.takeover.view = none ∧ t.takeover.startLimit = none ∧ t.takeover.silence = none ∧
  (s.takeover.view ≠ none → t.regs.notice.getLsbD 4 = true)

/-- Capture goes on as it stands, from `s` to `t`. -/
def CaptureKept (s t : State) : Prop :=
  t.camera = s.camera ∧ t.capLoad = s.capLoad ∧ t.takeover.view = s.takeover.view ∧
  t.takeover.startLimit = s.takeover.startLimit ∧ t.takeover.silence = s.takeover.silence

/-- The condition for capture is judged again, from `s` to `t`, and found to be `wanted` (R122); `freed` as in
`CaptureStops`. -/
def CaptureJudged (s t : State) (wanted freed : Bool) : Prop :=
  (s.camera.enabled = wanted → CaptureKept s t) ∧
  (s.camera.enabled = false → wanted = true → CaptureStarts s t) ∧
  (s.camera.enabled = true → wanted = false → CaptureStops s t freed)

/-- Capture is wanted in `s` without a takeover: in RUN, for a CAMERA layer of the centre's plan or with warm on (R122). -/
def State.captureAtRest (s : State) : Bool :=
  decide (s.runState = .run) && (s.screens.centre.hasCamera || s.settings.camera.warm)

/-- A SHOWN buffer is freed as capture is disabled: outside RUN, where the centre has no refresh in progress (R123). -/
def State.freesShown (s : State) : Bool := decide (s.runState ≠ .run) && s.screens.centre.refresh.isNone

/-- Every queued chime entry receives RELEASED, from `s` to `t`, with its plays completed as count (R162): it retires, or is
held on by the cursor with that verdict recorded. -/
def ChimesReleased (s t : State) : Prop :=
  let queued := s.chime.alertQ ++ s.chime.uiQ
  s.HoldsWritten → s.HoldsPlaced → ∀ q ∈ queued, ∀ h, s.hold? .chime q.addr = some h →
    (∀ x ∈ queued, x.addr = q.addr → x = q) →
    let k := { h with verdict := some EntryState.released, count := q.plays, client := false, waiting := false }
    (k.isFree = true → t.hold? .chime q.addr = none ∧ t.regs.notice.getLsbD 2 = true ∧
      Mem.readLE t.mem q.addr 4 = (statusWord .released false h.shed h.invalid).toNat ∧
      Mem.readLE t.mem (q.addr + 4) 4 = (reportWord q.plays h.late).toNat) ∧
    (k.isFree = false → t.hold? .chime q.addr = some { k with written := some k.heldWord })

/-- What an event that asks for the sensor-fault chime when `asks` holds makes, from `s` to `t`, of its pending flag
(R155): it becomes pending, unless the setting names no usable pattern or the fault chime plays; otherwise the flag
stands, and one that is pending stays so. -/
def FaultChimeAsked (s t : State) (asks : Prop) : Prop :=
  let usable : Prop := s.settings.chime.faultPattern ≠ 255 ∧
    s.chime.library.getD s.settings.chime.faultPattern none ≠ none
  let playing : Prop := ∃ p, s.chime.alert.play = some p ∧ p.source = .fault
  (asks → usable → ¬ playing → t.chime.pending = true) ∧
  (¬ asks ∨ ¬ usable ∨ playing → t.chime.pending = s.chime.pending)

/-- What the takeover controller makes, from `s` to `t`, of the reverse decision becoming `d` (R116 to R119). Engaged: a
NORMAL controller in RUN makes a takeover start, which sets the angle in use and enables capture where it was not, a LINGER
one returns to ACTIVE, and in STANDBY the part wakes and makes a takeover start. Released in ACTIVE: a pending standby is
granted, capture disabled and the queued chime entries RELEASED; else NORMAL with a linger time of 0 or the car going
forward, capture judged again; and else LINGER with its timer set. Each change is handed to the chime engine, whose cadence
ends in NORMAL. A takeover start asks for the sensor-fault chime while the zone held is UNKNOWN, and the return to NORMAL
clears a pending one (R155). -/
def ReverseEvent (s t : State) (d : Bool) : Prop :=
  let st := s.settings.reverse
  (d = true → s.takeover.reverse = false →
    (s.runState = .run ∧ s.takeover.state = .normal ∨ s.runState = .standby →
      t.runState = .run ∧ t.takeover.state = .active ∧ t.takeover.takeovers = min (s.takeover.takeovers + 1) 65535 ∧
      t.takeover.losts = s.takeover.losts ∧ t.takeover.pendingStandby = s.takeover.pendingStandby ∧
      t.takeover.linger = s.takeover.linger ∧
      t.camera.enabled = true ∧ t.guide = { s.guide with set := { s.guide.set with angleInUse := s.vehicle.angle } } ∧
      t.regs.notice.getLsbD 4 = true ∧
      t.takeover.view = (if s.camera.enabled ∧ roleCount s.camera.roles .shown ≠ 0 ∧ s.camera.silent = false then
        some .live else some .wait) ∧
      (s.camera.enabled = false → CaptureStarts s t) ∧
      (s.camera.enabled = true → t.camera = s.camera ∧ t.capLoad = s.capLoad ∧ t.takeover.silence = s.takeover.silence ∧
        t.takeover.startLimit =
          (if t.takeover.view = some .live then none else some s.settings.camera.startLimit)) ∧
      t.chime.takeover = .active ∧ FaultChimeAsked s t (s.chime.takeover = .normal ∧ s.chime.zone = .unknown) ∧
      (s.runState = .standby → t.regs.standby = false ∧ t.regs.notice.getLsbD 10 = true ∧
        ∀ i, (t.screens.get i).genOn = true ∧ (t.screens.get i).nextStart = (s.settings.screens.get i).phase)) ∧
    (s.runState = .run → s.takeover.state = .linger →
      t.takeover.state = .active ∧ t.takeover.linger = none ∧ CaptureKept s t ∧
      t.takeover.takeovers = s.takeover.takeovers ∧ t.takeover.losts = s.takeover.losts ∧ t.guide = s.guide ∧
      t.regs.notice.getLsbD 4 = true ∧ t.chime.takeover = .active ∧
      (s.chime.takeover ≠ .normal → t.chime.pending = s.chime.pending))) ∧
  (d = false → s.takeover.reverse = true → s.takeover.state = .active → t.regs.notice.getLsbD 4 = true ∧
    t.takeover.takeovers = s.takeover.takeovers ∧ t.takeover.losts = s.takeover.losts ∧ t.guide = s.guide ∧
    (s.takeover.pendingStandby = true → t.runState = .standby ∧ t.takeover.state = .normal ∧
      t.takeover.pendingStandby = false ∧ t.takeover.linger = none ∧ t.camera.enabled = false ∧
      (s.camera.enabled = true → CaptureStops s t s.screens.centre.refresh.isNone) ∧
      t.chime.takeover = .normal ∧ t.chime.cad = .off ∧ t.chime.pending = false ∧ ChimesReleased s t) ∧
    (s.takeover.pendingStandby = false → t.runState = s.runState ∧ t.takeover.pendingStandby = false ∧
      (st.linger = 0 ∨ s.forwardFast = true → t.takeover.state = .normal ∧ t.takeover.linger = none ∧
        CaptureJudged s t s.captureAtRest s.freesShown ∧
        t.chime.takeover = .normal ∧ t.chime.cad = .off ∧ t.chime.pending = false) ∧
      (st.linger ≠ 0 → s.forwardFast = false → t.takeover.state = .linger ∧
        t.takeover.linger = some st.linger ∧ CaptureKept s t ∧ t.chime.takeover = .linger ∧
        (s.chime.zone = .caution ∨ s.chime.zone = .stop → t.chime.cad = s.chime.cad) ∧
        t.chime.pending = s.chime.pending)))

/-- The layer draws at (col, row) a pixel of a clamped cell: one within its rectangle and its map whose record names a glyph
beyond the sheet (R83, R86 to R88). -/
def State.drawsClampedCell (s : State) (l : Layer) (scroll col row : Nat) : Bool :=
  match layerPixel l.x l.y l.w l.h col row with
  | none => false
  | some (i, j) =>
    let c := l.cells
    let cell := Mem.readLE s.mem (c.map + ((j + scroll) / 16 % c.rows * c.cols + i / 16) * 4) 4
    decide (i / 16 < c.cols) && decide (l.glyphs ≤ cell % 1024)

/-- The CELLS layers of refresh `r` that draw a clamped cell at (col, row) for the first time in the refresh (R86): of the
plan's layers in NORMAL and INVERT those that are neither shed, nor covers, nor fetch-failed, and the takeover cell layer,
whose number is 6, of the takeover picture. -/
def State.newlyClamped (s : State) (r : Refresh) (col row : Nat) : List Nat :=
  let cells := fun l : SetLayer => decide (l.layer.kind = .cells) && !l.shed && !(l.layer.restricted && r.cover) &&
    decide (.layer l.idx ∉ r.failed) && s.drawsClampedCell l.layer l.scroll col row
  let hits : List Nat :=
    if r.set.takeover then
      match s.settings.cellLayer with
      | some l => if .takeoverCells ∉ r.failed ∧ s.drawsClampedCell l r.set.cellScroll col row = true then [6] else []
      | none => []
    else if r.set.mode = .normal ∨ r.set.mode = .invert then (r.set.layers.filter cells).map (·.idx)
    else []
  hits.filter (fun n => decide (n ∉ r.clamped))

/-! ## What is true of each block between steps -/

/-- A chain's state and its cursor agree (R8): EMPTY has none, RUNNING has one. -/
structure Chain.Ok (c : Chain) : Prop where
  empty : c.state = .empty → c.cursor = none
  running : c.state = .running → c.cursor ≠ none

/-- Every chain agrees with its cursor. -/
def State.ChainsOk (s : State) : Prop := ∀ c, (s.chain c).Ok

/-- The entry a chain's cursor stands on is held, and its record bears the mark (R4, R9, R13). -/
def State.CursorsHeld (s : State) : Prop :=
  ∀ c a, (s.chain c).cursor = some a → ∃ h, s.hold? c a = some h ∧ h.cursor = true

/-- A stream's counters, settings in use and shown frame agree with its state (R58, R62, R64 to R66, R69, R70). -/
structure Stream.Ok (y : Stream) : Prop where
  fine : y.fine < 16
  balance : -18000 ≤ y.balance ∧ y.balance ≤ 18000
  interval : 1000 ≤ y.interval ∧ y.interval ≤ 9000
  shown : y.shown = none ↔ y.state = .idle ∨ y.state = .priming
  cleared : y.shown = none → y.clock = 0 ∧ y.fine = 0 ∧ y.lastPts = none
  last : ∀ f, y.shown = some f → y.lastPts = some f.pts
  idle : y.state = .idle → y.balance = 0

/-- Both streams. -/
def State.StreamsOk (s : State) : Prop := ∀ x, (s.streams.get x).Ok

/-- The receiver's buffer and the vehicle record stay in their ranges (R99, R103 to R105). -/
structure State.VehicleOk (s : State) : Prop where
  buffer : s.link.buf.length ≤ 16
  marks : s.link.buf = [] → s.link.damaged = none ∧ s.link.long = false
  long : s.link.long = true → s.link.buf.length = 16
  angle : -9000 ≤ s.vehicle.angle ∧ s.vehicle.angle ≤ 9000
  speed : s.vehicle.speed ≤ 30000
  ranges : s.vehicle.ranges.length = 4 ∧ ∀ v ∈ s.vehicle.ranges, v ≤ 65535
  heard : s.vehicle.kinds.range.accepted ≠ 0 → ∀ v ∈ s.vehicle.ranges, 1 ≤ v
  dim : s.vehicle.dim ≤ 255 ∧ s.vehicle.dimInUse ≤ 255
  timers : ∀ k, (s.vehicle.kinds.get k).fresh = false → (s.vehicle.kinds.get k).timer = none
  motion : s.vehicle.kinds.speed.fresh = false → s.vehicle.motion = .unknown

/-- What the chime engine was last handed is what stands: the takeover state (R116) and the parking zone record (R140). -/
structure State.HandedOk (s : State) : Prop where
  takeover : s.chime.takeover = s.takeover.state
  zone : s.chime.zone = s.guide.set.zone
  dist : s.chime.dist = s.guide.set.dist

/-- The reverse decision is always the one the reverse source forms from the line and link decisions (R115). -/
def State.ReverseOk (s : State) : Prop :=
  s.takeover.reverse = reverseDecision s.settings.reverse.source s.monitor.decision s.takeover.linkDecision

/-- The takeover controller and its standby request (R117, R118, R170). -/
structure State.TakeoverOk (s : State) : Prop where
  normal : s.runState ≠ .run → s.takeover.state = .normal
  pending : s.takeover.pendingStandby = true → s.takeover.state = .active ∧ s.regs.standby = true
  linger : s.takeover.linger.isSome = true ↔ s.takeover.state = .linger

/-- The capture unit, the view status, the timers, the buffers and the counted load agree (R32, R122 to R128). -/
structure State.CaptureOk (s : State) : Prop where
  inRun : s.camera.enabled = true → s.runState = .run
  takeover : s.takeover.state ≠ .normal → s.camera.enabled = true
  view : s.takeover.view.isSome = s.camera.enabled
  unit : s.camera.unit = .idle ↔ s.camera.enabled = false
  startLimit : s.takeover.startLimit.isSome = true ↔ s.takeover.view = some .wait
  silence : s.takeover.silence.isSome = true ↔ s.camera.silent = false
  load : s.capLoad = if s.camera.enabled then captureLoad s.settings.camera else 0
  capturing : roleCount s.camera.roles .capturing = if s.camera.enabled then 1 else 0
  ready : roleCount s.camera.roles .ready ≤ if s.camera.enabled then 1 else 0
  shown : roleCount s.camera.roles .shown ≤ 1

/-- While the motion state is MOVING or UNKNOWN, a centre refresh that shows the host's plan has its cover mark set
(R53, R54). -/
def State.CoverOk (s : State) : Prop :=
  ∀ r, s.screens.centre.refresh = some r → r.set.takeover = false → s.covered = true → r.cover = true

/-- A waiting CLICK of a queue. -/
def QEntry.waitingClick (q : QEntry) : Bool := !q.playing && decide (q.cls = .click)

/-- The chime queues keep to their limits and classes, and the audio word to 16 bits (R150, R151, R160). -/
structure State.ChimesOk (s : State) : Prop where
  alertLen : s.chime.alertQ.length ≤ 4
  uiLen : s.chime.uiQ.length ≤ 8
  alertCls : ∀ q ∈ s.chime.alertQ, q.cls = .urgent
  uiCls : ∀ q ∈ s.chime.uiQ, q.cls ≠ .urgent
  clicks : (s.chime.uiQ.filter QEntry.waitingClick).length ≤ 1
  audio : -32768 ≤ s.chime.audioOut ∧ s.chime.audioOut ≤ 32767

/-- The duck line is asserted exactly while its condition holds or its timer runs, and the timer runs only while the
condition does not hold (R161). -/
def State.DuckOk (s : State) : Prop :=
  s.chime.duck = (s.chime.duckCond || s.chime.duckTimer.isSome) ∧
  (s.chime.duckCond = true → s.chime.duckTimer = none)

/-- The status writer (R173, R174). -/
structure State.StatusOk (s : State) : Prop where
  timer : s.status.timerOn = s.runState.active
  rest : s.runState.active = false → s.status.update = none ∧ s.status.frozen = false ∧ s.status.freezeWaiting = false
  update : ∀ u, s.status.update = some u → u.count = s.status.count ∧ u.pos % 4 = 0 ∧ 4 ≤ u.pos ∧ u.pos ≤ 9216
  frozen : s.status.frozen = true → s.status.update = none
  freezeOn : s.status.freezeOn = s.status.frozen
  waiting : s.status.freezeWaiting = true → s.status.update.isSome = true ∧ s.status.expired = false
  expired : s.status.expired = true → s.status.frozen = false

/-- A screen's shed mask names only layers of its current plan of nonzero shed rank, and none while the screen shows
the takeover picture (R36). -/
def Screen.ShedOk (sc : Screen) : Prop :=
  (sc.showsTakeover = true → sc.adm.mask = 0) ∧
  ∀ n, sc.adm.mask.getLsbD n = true → ∃ l ∈ sc.planLayers, l.idx = n ∧ l.layer.rank ≠ 0

/-- Every screen's shed mask. -/
def State.ShedOk (s : State) : Prop := ∀ i, (s.screens.get i).ShedOk

/-- The registers hold nothing in bits that are not assigned, and a start detail, an index of Table 11-2, only with
BAD_SETTINGS (R166, R176). -/
structure State.RegsOk (s : State) : Prop where
  notice : s.regs.notice &&& ~~~noticeBits = 0
  mask : s.regs.noticeMask &&& ~~~noticeBits = 0
  detail : s.regs.startDetail ≠ 0 → s.regs.startResult = .badSettings
  index : s.regs.startDetail ≤ 74

/-! ## Settings in their ranges (Tables 2-1, 6-1, 7-1, 8-2 and 9-2) -/

/-- One screen's settings (Table 2-1). -/
structure ScreenSettings.Legal (c : ScreenSettings) : Prop where
  width : 640 ≤ c.width ∧ c.width ≤ 1920 ∧ c.width % 16 = 0
  height : 360 ≤ c.height ∧ c.height ≤ 1200 ∧ c.height % 8 = 0
  period : 19200 ≤ c.period ∧ c.period ≤ 48000
  phase : c.phase < c.period

/-- The range `a` to `a + n - 1` and the range `b` to `b + n - 1` share no byte. -/
def Disjoint (a b n : Nat) : Prop := ∀ x, a ≤ x → x < a + n → ¬ (b ≤ x ∧ x < b + n)

/-- The numeric settings a start has let through: each of Tables 2-1, 6-1, 7-1, 8-2 and 9-2, the nudge rate (R71) and
the blink period (R90). -/
structure Settings.Legal (st : Settings) : Prop where
  base : st.windowBase % 4096 = 0
  size : st.windowSize % 4096 = 0 ∧ 1048576 ≤ st.windowSize ∧ st.windowSize ≤ 68719476736
  top : st.windowBase + st.windowSize ≤ 2 ^ 64
  screens : ∀ i, (st.screens.get i).Legal
  budget : 10000 ≤ st.budget ∧ st.budget ≤ 4000000
  brightness : st.takeoverBrightness ≤ 255 ∧ st.brightnessFloor ≤ 255
  pwm : 100 ≤ st.pwm ∧ st.pwm ≤ 20000
  nudge : 1 ≤ st.nudgeRate ∧ st.nudgeRate ≤ 16
  blink : 200 ≤ st.blinkPeriod ∧ st.blinkPeriod ≤ 2000
  bitRate : 9600 ≤ st.link.bitRate ∧ st.link.bitRate ≤ 1000000
  stopBits : st.link.stopBits = 1 ∨ st.link.stopBits = 2
  fresh : ∀ k, 20 ≤ st.link.fresh.get k ∧ st.link.fresh.get k ≤ 5000
  restrict : st.link.restrictOff < st.link.restrictOn ∧ st.link.restrictOn ≤ 30000
  glitch : 1 ≤ st.reverse.glitch ∧ st.reverse.glitch ≤ 20
  settle : st.reverse.glitch < st.reverse.settleOn ∧ 5 ≤ st.reverse.settleOn ∧ st.reverse.settleOn ≤ 250 ∧
    5 ≤ st.reverse.settleOff ∧ st.reverse.settleOff ≤ 1000
  linger : st.reverse.linger ≤ 10000 ∧ st.reverse.lingerExit ≤ 30000
  camera : 320 ≤ st.camera.width ∧ st.camera.width ≤ 1920 ∧ st.camera.width % 16 = 0 ∧
    240 ≤ st.camera.height ∧ st.camera.height ≤ 1200 ∧ st.camera.height % 8 = 0 ∧
    1500 ≤ st.camera.period ∧ st.camera.period ≤ 9000
  limits : 200 ≤ st.camera.startLimit ∧ st.camera.startLimit ≤ 3000 ∧ 100 ≤ st.camera.silence ∧ st.camera.silence ≤ 1000
  buffers : ∀ n, st.inWindow (st.camera.buffers.get n) (st.camera.width * st.camera.height * 2) = true ∧
    st.camera.buffers.get n % 16 = 0
  apart : ∀ m n, m < n → n < 3 →
    Disjoint (st.camera.buffers.get m) (st.camera.buffers.get n) (st.camera.width * st.camera.height * 2)
  fallback : st.inWindow st.camera.fallback (st.camera.width * st.camera.height * 2) = true ∧ st.camera.fallback % 16 = 0
  origin : -4096 ≤ st.camera.originX ∧ st.camera.originX ≤ 4095 ∧ -4096 ≤ st.camera.originY ∧ st.camera.originY ≤ 4095
  lineWidth : 2 ≤ st.guide.lineWidth ∧ st.guide.lineWidth ≤ 8
  deadband : st.guide.deadband ≤ 50
  near : 10 ≤ st.guide.dNear ∧ st.guide.dNear ≤ 100 ∧ st.guide.dNear < st.guide.dFar ∧ 50 ≤ st.guide.dFar ∧
    st.guide.dFar ≤ 250
  faultPattern : st.chime.faultPattern ≤ 31 ∨ st.chime.faultPattern = 255
  park : 100 ≤ st.chime.parkFreq ∧ st.chime.parkFreq ≤ 8000 ∧ st.chime.parkLevel ≤ 255 ∧ st.chime.parkAttack ≤ 20 ∧
    st.chime.parkRelease ≤ 20
  duckHold : st.chime.duckHold ≤ 2000
  chime : 100 ≤ st.chime.tMin ∧ st.chime.tMin ≤ 500 ∧ 300 ≤ st.chime.tMax ∧ st.chime.tMin ≤ st.chime.tMax ∧
    st.chime.tMax ≤ 2000 ∧ 30 ≤ st.chime.beep ∧ st.chime.beep ≤ 200 ∧ st.chime.beep < 10 * (st.chime.tMin / 10) ∧
    st.chime.parkAttack + st.chime.parkRelease ≤ st.chime.beep

/-- While the part is in RUN, STANDBY or STOPPING it works from settings that passed their judgement (R20, R168). -/
def State.SettingsOk (s : State) : Prop := s.runState.active = true → s.settings.Legal

end Machine

end Sys2Proof
end

