-- ==== Sys2Proof/Certificates/Slice0/Obligations.lean ====
section
/-! DEFINITION. The statements for the provers. Each docstring names the rules or sections a statement rests on, and
the log entry where it rests on a choice of the model. Every command completes (no meaning faults or refuses); the
statements say with which next state. -/

open Sys2Proof Sys2Proof.Machine

/-! ## The machine and the register window (Chapter 10) -/

/-- A step takes the command at the front of the queue and runs it on the state with the queue's rest. With an empty queue
the pipes and the status writer go on, which is the model's choice (Log 4): the refresh in progress on each screen whose
panel is SENDING sends its next pixel, row by row, as composed from memory at that moment (R41, section 3.1), and an update
under way writes its next word from its copied page, all but the update-end count (section 10.5; that its position is a
multiple of 4 is an invariant stated below); nothing else changes, and a machine at rest stays as it is. A CELLS layer that
draws its first pixel of a clamped cell in the refresh is marked then and counted on the screen's glyph clamp counter, and
is counted no more in that refresh (section 5.2; that the count grows at that pixel is the model's reading, Log 27). The
rest of a refresh, sent when it ends, is sent pixel by pixel likewise. -/
def Obligations.StepRunsFrontCommand : Prop :=
  ∀ s : State,
    (∀ c rest, s.pending = c :: rest → step s = exec c { s with pending := rest }) ∧
    (s.pending = [] → step s = .next s.idle) ∧
    ((∀ i, (s.screens.get i).refresh = none) → s.status.update = none → s.idle = s) ∧
    (let t := s.idle
     t = { s with screens := t.screens, mem := t.mem, status := t.status } ∧
     (∀ i, let was := s.screens.get i
       let now := t.screens.get i
       let w := (s.settings.screens.get i).width
       let left := fun r : Refresh => r.set.panel = .sending ∧ r.pos < w * (s.settings.screens.get i).height
       ((∀ r, was.refresh = some r → ¬ left r) → now = was) ∧
       (∀ r, was.refresh = some r → left r →
         let new := s.newlyClamped r (r.pos % w) (r.pos / w)
         now = { was with
           pixelOut := some (composePixel s r (r.pos % w) (r.pos / w))
           refresh := some { r with pos := r.pos + 1, clamped := new ++ r.clamped }
           glyphClamps := if new = [] then was.glyphClamps else min (was.glyphClamps + new.length) 65535 }) ∧
       now = (s.sendPixel i).screens.get i ∧
       (∀ r, was.refresh = some r → r.set.panel = .sending →
         s.finishRefresh i = (List.range (w * (s.settings.screens.get i).height - r.pos)).foldl
           (fun u _ => u.sendPixel i) s)) ∧
     (∀ u, s.status.update = some u → u.pos % 4 = 0 → u.pos < 9216 → s.book + 0x4000 ≤ 2 ^ 64 →
       t.status = { s.status with update := some { u with pos := u.pos + 4 } } ∧
       ∀ a, Mem.get t.mem a =
         (if s.book + 0x1C00 + u.pos ≤ a ∧ a < s.book + 0x1C00 + u.pos + 4 ∧ u.pos ≠ 0x3C then
           u.page.getD (a - (s.book + 0x1C00)) 0 else Mem.get s.mem a)) ∧
     ((∀ u, s.status.update = some u → 9216 ≤ u.pos) → t.status = s.status ∧ t.mem = s.mem))

/-- Every command completes from every state: the part answers malfunctions by state (section 1.7, R168, R169), so no
command ends in a fault or a refusal. -/
def Obligations.EveryCommandCompletes : Prop := ∀ (c : Instr) (s : State), Completes (exec c s)

/-- A power-on reset, a SOFT_RESET and a CTRL write that carries SOFT_RESET put the part in OFF at once from every run
state, with every register, block, queue, timer and counter at its reset value; host memory is left as it stands (R172).
That a reset leaves the commands waiting and the level of the reverse line is the model's choice (Log 30), and so is
that the count of free values stands (Log 6); the values of the fields for which the spec states no reset value are the
model's too (Log 9). -/
def Obligations.ResetsPutThePartInOff : Prop :=
  ∀ (s : State) (c : Instr),
    (c = .powerOnReset ∨ c = .softReset ∨ ∃ v : BitVec 64, c = .registerWrite 0x08 4 v ∧ v.getLsbD 31 = true) →
    ∃ t, exec c s = .next t ∧
      t = { State.reset with pending := s.pending, mem := s.mem, linePin := s.linePin, freeIx := s.freeIx } ∧
      t.runState = .off ∧ t.irqLine = false ∧
      t.readReg 0x00 8 = 0 ∧ t.readReg 0x08 4 = 0 ∧ t.readReg 0x0C 4 = 0 ∧ t.readReg 0x10 4 = 0 ∧ t.readReg 0x14 4 = 0 ∧
      (∀ i, (t.screens.get i).panel = .idle ∧ (t.screens.get i).dutyOut = 0 ∧ (t.screens.get i).refresh = none ∧
        (t.screens.get i).plan = none ∧ (t.screens.get i).genOn = false) ∧
      (∀ k, t.chain k = Chain.reset) ∧ t.holds = [] ∧ t.chime.alertQ = [] ∧ t.chime.uiQ = [] ∧ t.chime.audioOut = 0 ∧
      t.chime.duck = false ∧ t.status.update = none ∧ t.camera.unit = .idle ∧ t.takeover.state = .normal ∧
      t.mem = s.mem

/-- R164. BOOKADDR is taken in OFF, whole or by halves, each half as it stands, and ignored in every other run state;
writes to STATE are ignored; the book's address is BOOKADDR's value when CTRL.RUN is written 1 in OFF; a read of a
register returns the value it holds at that moment. CTRL reads its level bits RUN, STANDBY, FREEZE and IRQ_ENABLE at bits
0 to 3, and 0 in its action bits and every other; STATE reads the run state, FROZEN, the takeover state, the view status,
the start result, the guide-table-rejected bit and the start detail at the places of Table 11-10, and 0 elsewhere. The
premise of its last byte is an invariant stated below. -/
def Obligations.BookAddressIsTakenInOff : Prop :=
  ∀ (s : State) (w : BookWrite),
    exec (.bookaddrWrite w) s = .next
      (if s.runState = .off then
        { s with regs := { s.regs with bookAddr :=
          match w with
          | .whole v => v
          | .low v => (s.regs.bookAddr.extractLsb' 32 32 ++ v : BitVec 64)
          | .high v => (v ++ s.regs.bookAddr.extractLsb' 0 32 : BitVec 64) } }
      else s) ∧
    (∀ v : BitVec 64, exec (.registerWrite 0x0C 4 v) s = .next s) ∧
    (s.runState = .off → s.regs.run = false →
      ∃ t, exec .start s = .next t ∧ t.book = s.regs.bookAddr.toNat ∧ t.regs.bookAddr = s.regs.bookAddr) ∧
    s.readReg 0x00 8 = s.regs.bookAddr.toNat ∧
    s.readReg 0x00 4 = (s.regs.bookAddr.extractLsb' 0 32).toNat ∧
    s.readReg 0x04 4 = (s.regs.bookAddr.extractLsb' 32 32).toNat ∧
    s.readReg 0x08 4 = s.ctrlWord.toNat ∧ s.readReg 0x0C 4 = s.stateWord.toNat ∧
    s.readReg 0x10 4 = s.regs.notice.toNat ∧ s.readReg 0x14 4 = s.regs.noticeMask.toNat ∧
    (∀ k, s.ctrlWord.getLsbD k =
      if k = 0 then s.regs.run else if k = 1 then s.regs.standby else if k = 2 then s.regs.freeze
      else if k = 3 then s.regs.irqEnable else false) ∧
    (let field := fun low bits : Nat => s.readReg 0x0C 4 / 2 ^ low % 2 ^ bits
     field 0 3 = (match s.runState with | .off => 0 | .starting => 1 | .run => 2 | .standby => 3 | .stopping => 4) ∧
     field 3 1 = (if s.status.frozen then 1 else 0) ∧
     field 4 2 = (match s.takeover.state with | .normal => 0 | .active => 1 | .linger => 2) ∧
     field 6 2 = (match s.takeover.view with | none => 0 | some .wait => 1 | some .live => 2 | some .lost => 3) ∧
     field 8 3 = (match s.regs.startResult with
       | .ok => 0 | .badBookAddress => 1 | .badFormat => 2 | .badSettings => 3 | .memoryError => 4) ∧
     field 11 1 = (if s.regs.guideRejected then 1 else 0) ∧ field 12 4 = 0 ∧
     field 16 8 = s.regs.startDetail % 256 ∧ (s.RegsOk → field 16 8 = s.regs.startDetail ∧ field 24 8 = 0))

/-- CTRL.RUN written 1: in OFF it starts the part, which takes the book's address from BOOKADDR and a copy of the book's
header, settings record, chime library and guide table, so that a later write to them takes effect at the next start
(sections 1.1, 10.1 and 10.3; that the copy is whole at the START is the model's choice, Log 40); in STARTING the bit is
stored; everywhere else, and where the bit reads 1 already, it changes nothing. A refused start puts the part in OFF with
the result and detail of the judgement and CTRL.RUN cleared, and changes nothing else (section 10.3). START_REFUSED outside
STARTING or where the judgement finds no failure, and START_COMPLETED outside STARTING or where it finds one, change
nothing, which is the model's choice (Log 3). -/
def Obligations.StartEntersStartingOrIsRefused : Prop :=
  (∀ s : State,
    (s.regs.run = true → exec .start s = .next s) ∧
    (s.regs.run = false →
      (s.runState = .off → ∃ m, exec .start s = .next
        { s with runState := .starting, book := s.regs.bookAddr.toNat, bookCopy := m
                 regs := { s.regs with run := true, startResult := .ok, startDetail := 0, guideRejected := false } } ∧
        ∀ a : Nat, let b := s.regs.bookAddr.toNat
          Mem.get m a = if (b ≤ a ∧ a < b + 0x400) ∨ (b + 0x500 ≤ a ∧ a < b + 0x1C00) then Mem.get s.mem a else 0) ∧
      (s.runState = .starting → exec .start s = .next { s with regs := { s.regs with run := true } }) ∧
      (s.runState = .run ∨ s.runState = .standby ∨ s.runState = .stopping → exec .start s = .next s))) ∧
  (∀ (s : State) (e : LinkErrs) (r : StartResult) (n : Nat), s.judgeStart e = (r, n) →
    (s.runState = .starting → r ≠ .ok → exec (.startRefused e) s = .next
      { s with runState := .off, regs := { s.regs with run := false, startResult := r, startDetail := n } }) ∧
    (s.runState ≠ .starting ∨ r = .ok → exec (.startRefused e) s = .next s) ∧
    (s.runState ≠ .starting ∨ r ≠ .ok → exec (.startCompleted e) s = .next s))

/-- The judgement of the book goes by the steps of section 10.3 on the copy taken at the START (section 1.1): the first step
that fails names the result. In step 6 the fields are checked in the order of their indices in Table 11-2 (section 11.2),
all but those that take any value, each at its offset there and by its own condition, and the first that fails gives its
index; all pass exactly when every setting of Tables 2-1, 6-1, 7-1, 8-2 and 9-2 lies in its range and every code names one
of its values. A failed read of the header, the settings record, the library, the guide table or the roots gives
MEMORY_ERROR; which bytes these reads cover is the model's reading (Log 22), and that the roots are read at the outcome is
its choice (Log 40). The start is OK exactly when every step passes. The takeover cell layer is absent, in use or rejected
by its flag and by what a CELLS layer of a plan must meet (section 5.6); a pattern of the library is unusable by its note
count or by a note within it, and else has the notes of its record (section 9.1); the guide table has the numbers of Table
11-8, and its judgement names the first of the eight faults in their order, or NONE (section 8.1). -/
def Obligations.BookIsJudgedStepByStep : Prop :=
  (∀ (s : State) (e : LinkErrs),
    let b := s.book
    let m := s.bookCopy
    let st := readSettings m b
    let code := fun o : Nat => Mem.readLE m (b + 0x40 + o) 1
    let placed := b % 4096 = 0 ∧ b + 16384 ≤ 2 ^ 64
    let headed := placed ∧ touches e.reads b 4 = false ∧ Mem.readLE m b 4 = 1
    let read := headed ∧ touches e.reads (b + 0x40) 960 = false
    let based := read ∧ st.windowBase % 4096 = 0
    let sized := based ∧ st.windowSize % 4096 = 0 ∧ 2 ^ 20 ≤ st.windowSize ∧ st.windowSize ≤ 2 ^ 36 ∧
      st.windowBase + st.windowSize ≤ 2 ^ 64
    let inside := sized ∧ st.windowBase ≤ b ∧ b + 16384 ≤ st.windowBase + st.windowSize
    let checks := fieldChecks m b st
    let passed := inside ∧ st.Legal ∧ code 0x54 ≤ 2 ∧ code 0x64 ≤ 2 ∧ code 0x65 ≤ 1 ∧ code 0x76 ≤ 1 ∧ code 0x77 ≤ 1 ∧
      code 0xA4 ≤ 1 ∧ code 0xC4 ≤ 1
    let lost := touches e.reads (b + 0x500) 4608 || guideReadFails m (b + 0x1700) e.reads || s.rootReadFails e.reads
    (¬ placed → s.judgeStart e = (.badBookAddress, 0)) ∧
    (placed → touches e.reads b 4 = true → s.judgeStart e = (.memoryError, 0)) ∧
    (placed → touches e.reads b 4 = false → Mem.readLE m b 4 ≠ 1 → s.judgeStart e = (.badFormat, 0)) ∧
    (headed → touches e.reads (b + 0x40) 960 = true → s.judgeStart e = (.memoryError, 0)) ∧
    (read → ¬ based → s.judgeStart e = (.badSettings, 1)) ∧
    (based → ¬ sized → s.judgeStart e = (.badSettings, 2)) ∧
    (sized → ¬ inside → s.judgeStart e = (.badBookAddress, 0)) ∧
    checks.map (·.1) =
      [3, 4, 5, 6, 8, 9, 10, 11, 13, 14, 15, 16, 18, 19, 22, 23, 24, 25, 26, 27, 28, 29, 30, 31, 32, 33, 34, 35, 36, 37, 38,
       39, 40, 41, 42, 43, 44, 45, 46, 47, 49, 50, 51, 52, 53, 54, 55, 56, 57, 58, 59, 65, 67, 68, 69, 70, 71, 72, 73, 74] ∧
    (let f := fun o n : Nat => Mem.readLE m (b + 0x40 + o) n
     let within := fun v lo hi : Nat => lo ≤ v ∧ v ≤ hi
     let screen := fun n o : Nat => ([
       (n, within (f o 2) 640 1920 ∧ f o 2 % 16 = 0), (n + 1, within (f (o + 2) 2) 360 1200 ∧ f (o + 2) 2 % 8 = 0),
       (n + 2, within (f (o + 4) 4) 19200 48000), (n + 3, f (o + 8) 4 < f (o + 4) 4)] : List (Nat × Prop))
     let picture := f 0x70 2 * f 0x72 2 * 2
     let placed' := fun o : Nat => f o 8 % 16 = 0 ∧ f 0 8 ≤ f o 8 ∧ f o 8 + picture ≤ f 0 8 + f 8 8
     let clear := fun o p : Nat => f o 8 + picture ≤ f p 8 ∨ f p 8 + picture ≤ f o 8
     let origin := fun o : Nat => -4096 ≤ toSigned 16 (f o 2) ∧ toSigned 16 (f o 2) ≤ 4095
     let table : List (Nat × Prop) := screen 3 0x10 ++ screen 8 0x20 ++ screen 13 0x30 ++ [
       (18, within (f 0x40 4) 10000 4000000), (19, within (f 0x44 4) 100 20000), (22, within (f 0x4A 1) 1 16),
       (23, within (f 0x4C 2) 200 2000), (24, within (f 0x50 4) 9600 1000000), (25, f 0x54 1 ≤ 2),
       (26, within (f 0x55 1) 1 2), (27, within (f 0x56 2) 20 5000), (28, within (f 0x58 2) 20 5000),
       (29, within (f 0x5A 2) 20 5000), (30, within (f 0x5C 2) 20 5000), (31, within (f 0x5E 2) 20 5000),
       (32, f 0x60 2 ≤ 30000), (33, f 0x62 2 ≤ 30000 ∧ f 0x60 2 < f 0x62 2), (34, f 0x64 1 ≤ 2), (35, f 0x65 1 ≤ 1),
       (36, within (f 0x66 2) 1 20), (37, within (f 0x68 2) 5 250 ∧ f 0x66 2 < f 0x68 2), (38, within (f 0x6A 2) 5 1000),
       (39, f 0x6C 2 ≤ 10000), (40, f 0x6E 2 ≤ 30000), (41, within (f 0x70 2) 320 1920 ∧ f 0x70 2 % 16 = 0),
       (42, within (f 0x72 2) 240 1200 ∧ f 0x72 2 % 8 = 0), (43, within (f 0x74 2) 1500 9000), (44, f 0x76 1 ≤ 1),
       (45, f 0x77 1 ≤ 1), (46, within (f 0x78 2) 200 3000), (47, within (f 0x7A 2) 100 1000), (49, placed' 0x80),
       (50, placed' 0x88 ∧ clear 0x80 0x88), (51, placed' 0x90 ∧ clear 0x80 0x90 ∧ clear 0x88 0x90), (52, placed' 0x98),
       (53, origin 0xA0), (54, origin 0xA2), (55, f 0xA4 1 ≤ 1), (56, within (f 0xA5 1) 2 8), (57, f 0xA6 1 ≤ 50),
       (58, within (f 0xA7 1) 10 100), (59, within (f 0xA8 2) 50 250 ∧ f 0xA7 1 < f 0xA8 2),
       (65, f 0xC0 1 ≤ 31 ∨ f 0xC0 1 = 255), (67, within (f 0xC2 2) 100 8000), (68, f 0xC4 1 ≤ 1), (69, f 0xC5 1 ≤ 20),
       (70, f 0xC6 1 ≤ 20), (71, within (f 0xC8 2) 100 500), (72, within (f 0xCA 2) 300 2000 ∧ f 0xC8 2 ≤ f 0xCA 2),
       (73, within (f 0xCC 2) 30 200 ∧ f 0xCC 2 < 10 * (f 0xC8 2 / 10) ∧ f 0xC5 1 + f 0xC6 1 ≤ f 0xCC 2),
       (74, f 0xCE 2 ≤ 2000)]
     st.windowBase = f 0 8 ∧ st.windowSize = f 8 8 ∧ checks.length = table.length ∧
     ∀ c ∈ checks.zip table, c.1.1 = c.2.1 ∧ (c.1.2 = true ↔ c.2.2)) ∧
    (inside → ((∀ c ∈ checks, c.2 = true) ↔ passed)) ∧
    (inside → ∀ l1 n l2, checks = l1 ++ (n, false) :: l2 → (∀ c ∈ l1, c.2 = true) →
      s.judgeStart e = (.badSettings, n)) ∧
    (inside → (st.screens.centre.width < 640 ∨ 1920 < st.screens.centre.width ∨ st.screens.centre.width % 16 ≠ 0) →
      s.judgeStart e = (.badSettings, 3)) ∧
    (passed → lost = true → s.judgeStart e = (.memoryError, 0)) ∧
    (passed → lost = false → s.judgeStart e = (.ok, 0)) ∧
    ((s.judgeStart e).1 = .ok → passed ∧ lost = false) ∧
    ((s.judgeStart e).1 ≠ .badSettings → (s.judgeStart e).2 = 0)) ∧
  (∀ (m : Mem) (b : Nat),
    let st := readSettings m b
    let cells := readLayer m (b + 0x120)
    let present : Prop := Mem.readLE m (b + 0x110) 1 % 2 = 1
    let good : Prop := cells.kind = .cells ∧ cells.valid st .left = true
    (¬ present → st.cellState = .absent ∧ st.cellLayer = none) ∧
    (present → good → st.cellState = .inUse ∧ st.cellLayer = some cells) ∧
    (present → ¬ good → st.cellState = .rejected ∧ st.cellLayer = none)) ∧
  (∀ (m : Mem) (b : Nat), (readLibrary m b).length = 32 ∧ ∀ p, p < 32 →
    let count := Mem.readLE m (b + 0x500 + 144 * p) 1
    let note := fun k o n : Nat => Mem.readLE m (b + 0x500 + 144 * p + 16 + 16 * k + o) n
    let unusable : Prop := count = 0 ∨ 8 < count ∨ ∃ k, k < count ∧
      ((note k 0 2 ≠ 0 ∧ (note k 0 2 < 100 ∨ 8000 < note k 0 2)) ∨ 1 < note k 3 1 ∨ 2000 < note k 6 2 ∨ 2000 < note k 8 2 ∨
        2000 < note k 10 2 ∨ 2000 < note k 12 2)
    (unusable → (readLibrary m b)[p]? = some none) ∧
    (¬ unusable → (readLibrary m b)[p]? = some (some ((List.range count).map (fun k : Nat =>
      { freq := note k 0 2, duty := note k 2 1, wave := if note k 3 1 = 0 then .square else .triangle, level := note k 4 1
        attack := note k 6 2, hold := note k 8 2, release := note k 10 2, gap := note k 12 2 }))))) ∧
  (∀ (m : Mem) (g : Nat),
    let n := Mem.readLE m g 2
    let k := Mem.readLE m (g + 2) 2
    let t := readGuideTable m g n k
    let signed := fun a : Nat => toSigned 16 (Mem.readLE m a 2)
    let line := fun a : Nat => (List.range k).map (fun j => (⟨signed (a + 4 * j), signed (a + 4 * j + 2)⟩ : Pt))
    let points := t.dynLeft.flatten ++ t.dynRight.flatten ++ t.statLeft ++ t.statRight
    let faults : List (GuideReason × Prop) := [
      (.nodeCount, n < 2 ∨ 17 < n), (.markCount, k < 2 ∨ 8 < k), (.angleRange, ∃ a ∈ t.angles, a < -9000 ∨ 9000 < a),
      (.angleOrder, ∃ j x y, t.angles[j]? = some x ∧ t.angles[j + 1]? = some y ∧ y ≤ x),
      (.distanceRange, ∃ d ∈ t.dists, d < 1 ∨ 1000 < d),
      (.distanceOrder, ∃ j x y, t.dists[j]? = some x ∧ t.dists[j + 1]? = some y ∧ y ≤ x),
      (.colour, ∃ c ∈ t.colours, 2 < c),
      (.pointRange, ∃ p ∈ points, p.x < -2048 ∨ 4095 < p.x ∨ p.y < -2048 ∨ 4095 < p.y)]
    t.angles = (List.range n).map (fun j => signed (g + 8 + 2 * j)) ∧
    t.dists = (List.range k).map (fun j => Mem.readLE m (g + 0x30 + 2 * j) 2) ∧
    t.colours = (List.range k).map (fun j => Mem.readLE m (g + 0x40 + j) 1) ∧
    t.dynLeft = (List.range n).map (fun j => line (g + 0x50 + 32 * j)) ∧
    t.dynRight = (List.range n).map (fun j => line (g + 0x270 + 32 * j)) ∧
    t.statLeft = line (g + 0x490) ∧ t.statRight = line (g + 0x4B0) ∧
    (∀ l1 r f l2, faults = l1 ++ (r, f) :: l2 → (∀ c ∈ l1, ¬ c.2) → f → judgeGuide n k t = r) ∧
    ((∀ c ∈ faults, ¬ c.2) → judgeGuide n k t = .none))

/-- A completed start puts every block at its start values, from the copy of the book and the roots as they stand, and acts
on the held bits of CTRL: RUN 0 stops the part, FREEZE 1 freezes the status writer before its first update, STANDBY 1 is
granted at once (R169; section 10.3, and the state table of each chapter). A screen has no plan, no refresh, duty 0 and
counters 0, and its first frame start falls at its phase offset (sections 2.8, 3.8 and 5.7). A stream takes its pacing
screen, interval and nudge serial from its record and counts each illegal one (section 4.8). Every value of the vehicle
record is 0; that direction and gear are UNKNOWN is the model's reading (Log 31). The reverse monitor starts RELEASED, or
ON_PENDING on an active line (section 7.2). With warm on capture is enabled, and the view status WAIT raises TAKEOVER. The
guide state, the reason and the table are those of the judgement, and a table kept is interpolated once at angle 0 (sections
8.1, 8.3 and 8.7); that the rest of that record is 0 is the model's choice (Log 45). GUIDE_OFF is raised for a table
rejected, and no notice but these two. The status timer runs and its counters are 0 (section 10.5). Memory is written by the
first status update alone, its update-begin count. That the copy was taken at the START and the roots' serials and control
fields are read at the outcome is the model's choice (Log 40), and so are that the update has written that one word by then
(Log 4) and that a monitor stopped at once by a held RUN 0 keeps its state (Log 36). -/
def Obligations.CompletedStartEntersRun : Prop :=
  ∀ (s : State) (e : LinkErrs), s.runState = .starting → (s.judgeStart e).1 = .ok →
    ∃ t, exec (.startCompleted e) s = .next t ∧
      let st := t.settings
      let active : Bool := s.linePin != st.reverse.activeLow
      t.runState = (if s.regs.run = false then .stopping else if s.regs.standby then .standby else .run) ∧
      t.regs.startResult = .ok ∧ t.regs.startDetail = 0 ∧ t.regs.bookAddr = s.regs.bookAddr ∧ t.book = s.book ∧
      t.settings = readSettings s.bookCopy s.book ∧ t.bookCopy = s.bookCopy ∧
      (t.regs.guideRejected = true ↔ t.guide.state = .tableRejected) ∧
      (∀ k, t.regs.notice.getLsbD k = (s.regs.notice.getLsbD k || (decide (k = 9) && t.regs.guideRejected) ||
        (decide (k = 4) && st.camera.warm))) ∧
      t.regs = { s.regs with startResult := .ok, startDetail := 0, guideRejected := t.regs.guideRejected
                             notice := t.regs.notice } ∧
      (let g := s.book + 0x1700
       let n := Mem.readLE s.bookCopy g 2
       let k := Mem.readLE s.bookCopy (g + 2) 2
       let table := readGuideTable s.bookCopy g n k
       let reason := judgeGuide n k table
       (reason = .none → t.guide = Guide.interpolate
         { state := if st.guide.enable then .inUse else .disabled, reason := .none, table := some table
           set := GuideRec.reset }) ∧
       (reason ≠ .none → t.guide = { state := .tableRejected, reason := reason, table := none, set := GuideRec.reset })) ∧
      t.guide.set.angleInUse = 0 ∧ t.guide.set.dynamicShown = false ∧ t.guide.set.zone = .unknown ∧
      t.guide.set.dist = none ∧ t.guide.set.markerShown = false ∧
      (∀ c, t.chain c = { Chain.reset with lastSerial := BitVec.ofNat 32 (Mem.readLE s.mem (s.rootAddr c + 8) 4) }) ∧
      t.holds = [] ∧
      (∀ x, let y := t.streams.get x
        let c := readControls s.mem (s.rootAddr (.film x))
        y.state = .idle ∧ y.shown = none ∧ y.clock = 0 ∧ y.fine = 0 ∧ y.balance = 0 ∧ y.lastPts = none ∧ y.req = .stop ∧
        y.pacing = c.pacing.getD (match x with | .a => .left | .b => .right) ∧
        y.interval = (if 1000 ≤ c.interval ∧ c.interval ≤ 9000 then c.interval else 3000) ∧ y.nudgeSerial = c.serial ∧
        y.late = 0 ∧ y.starves = 0 ∧
        y.recErrors = (if c.pacing = none then 1 else 0) + (if 1000 ≤ c.interval ∧ c.interval ≤ 9000 then 0 else 1)) ∧
      t.link = { Receiver.reset with on := s.regs.run, waitIdle := s.regs.run } ∧
      t.vehicle = { t.vehicle with
        angle := 0, speed := 0, direction := .unknown, ranges := [0, 0, 0, 0], gear := .unknown, dim := 0, dimInUse := 255
        motion := .unknown } ∧
      (∀ k, t.vehicle.kinds.get k = { alive := none, fresh := false, timer := none, accepted := 0 }) ∧
      t.monitor = { Monitor.reset with
        on := s.regs.run
        state := if active then .onPending else .released
        settle := if active && s.regs.run then some st.reverse.settleOn else none } ∧
      t.blinkOn = true ∧ t.blinkRunning = s.regs.run ∧
      t.takeover = { t.takeover with
        state := .normal, reverse := false, linkDecision := false, pendingStandby := false, linger := none, silence := none
        takeovers := 0, losts := 0 } ∧
      t.chime = { Chime.reset with
        library := readLibrary s.bookCopy s.book, tickOn := s.regs.run && !s.regs.standby } ∧
      (∀ i, t.screens.get i =
        { plan := none, mode := .dark, panel := .idle, duty := 0, dutyOut := 0, showsTakeover := false
          adm := { load := 0, mask := 0, overload := false }, overloads := 0, fetchErrors := 0, glyphClamps := 0
          refresh := none, coverKept := false, pixelOut := none, nextStart := (st.screens.get i).phase
          genOn := s.regs.run && !s.regs.standby }) ∧
      t.camera.enabled = (s.regs.run && !s.regs.standby && st.camera.warm) ∧
      (t.camera.enabled = false → t.camera = Camera.reset ∧ t.takeover.view = none ∧ t.takeover.startLimit = none ∧
        t.capLoad = 0) ∧
      (t.camera.enabled = true → t.takeover.view = some .wait ∧ t.takeover.startLimit = some st.camera.startLimit ∧
        t.capLoad = (st.camera.width * st.camera.height * 2 * 90 + st.camera.period - 1) / st.camera.period ∧
        t.camera = { Camera.reset with enabled := true, unit := .seeking, roles := ⟨.capturing, .free, .free⟩ }) ∧
      (s.regs.freeze = true → t.mem = s.mem ∧ t.status =
        { timerOn := true, frozen := true, freezeOn := true, expired := false, freezeWaiting := false, count := 0
          pageErrors := 0, update := none }) ∧
      (s.regs.freeze = false → (∃ page : List Byte, page.length = 9216 ∧
          (s.regs.run = true → s.regs.standby = false → page = t.pageImage 1) ∧ t.status =
          { timerOn := true, frozen := false, freezeOn := false, expired := false, freezeWaiting := false, count := 1
            pageErrors := 0, update := some { count := 1, page := page, pos := 4 } }) ∧
        Mem.readLE t.mem (s.book + 0x1C00) 4 = 1 ∧
        ∀ a, a < s.book + 0x1C00 ∨ s.book + 0x1C04 ≤ a → Mem.get t.mem a = Mem.get s.mem a) ∧
      t.pending = s.pending ∧ t.linePin = s.linePin ∧ t.freeIx = s.freeIx

/-- CTRL.RUN written 0 in RUN or STANDBY puts the part in STOPPING: receiver, monitor and blink timer stop, capture is
disabled, where a SHOWN buffer is freed at once only without a centre refresh in progress, every queued chime entry
keeps the verdict recorded for it or else has RELEASED, with its plays as count, for the writes of the stop's end,
sounding notes end, the audio port sends zeros, the duck line is released, the takeover state becomes NORMAL with a
pending standby cleared, and each refresh in progress becomes its screen's last. No memory is written (R123, R162,
R171). In STARTING the bit is stored; elsewhere nothing changes. -/
def Obligations.StopEntersStopping : Prop :=
  ∀ s : State,
    (s.regs.run = false → exec .stop s = .next s) ∧
    (s.regs.run = true →
      (s.runState = .starting → exec .stop s = .next { s with regs := { s.regs with run := false } }) ∧
      (s.runState = .off ∨ s.runState = .stopping → exec .stop s = .next s) ∧
      (s.runState = .run ∨ s.runState = .standby → ∃ t, exec .stop s = .next t ∧
        t.runState = .stopping ∧ t.regs.run = false ∧ t.regs.freeze = s.regs.freeze ∧ t.regs.standby = s.regs.standby ∧
        t.link.on = false ∧ t.link.buf = [] ∧ t.monitor.on = false ∧ t.monitor.glitches = s.monitor.glitches ∧
        t.monitor.activeLen = s.monitor.activeLen ∧ t.blinkRunning = false ∧ t.blinkOn = true ∧
        (∀ k, (t.vehicle.kinds.get k).timer = none ∧ (t.vehicle.kinds.get k).accepted = (s.vehicle.kinds.get k).accepted) ∧
        t.takeover.state = .normal ∧ t.takeover.pendingStandby = false ∧ t.takeover.linger = none ∧
        (s.takeover.state ≠ .normal → t.regs.notice.getLsbD 4 = true) ∧
        CaptureStops s t s.screens.centre.refresh.isNone ∧ t.takeover.losts = s.takeover.losts ∧ t.guide = s.guide ∧
        t.chime.audioOut = 0 ∧ t.chime.duck = false ∧ t.chime.tickOn = false ∧ t.chime.pending = false ∧ t.chime.alertQ = [] ∧ t.chime.uiQ = [] ∧
        t.chime.alert = Voice.idle ∧ t.chime.ui = Voice.idle ∧ t.chime.cad = .off ∧
        (∀ i, match (s.screens.get i).refresh with
          | some r => t.screens.get i = { s.screens.get i with refresh := some { r with final := true } }
          | none => (t.screens.get i).panel = .idle ∧ (t.screens.get i).dutyOut = 0 ∧ (t.screens.get i).genOn = false) ∧
        (let queued := s.chime.alertQ ++ s.chime.uiQ
         (∀ q ∈ queued, ∀ h, s.hold? .chime q.addr = some h → (∀ x ∈ queued, x.addr = q.addr → x = q) →
           t.hold? .chime q.addr = some { h with verdict := some (h.verdict.getD .released), count := q.plays }) ∧
         ∀ c a, (c = .chime → ∀ q ∈ queued, q.addr ≠ a) → t.hold? c a = s.hold? c a) ∧
        t.chains = s.chains ∧ t.streams = s.streams ∧ t.status = s.status ∧ t.mem = s.mem ∧ t.settings = s.settings ∧
        t.pending = s.pending))

/-- STOP_COMPLETED acts in STOPPING once no refresh is in progress: the part enters OFF, every chain is EMPTY without a
cursor, no hold is left, both streams are IDLE, every screen has no plan and its start admission, the status and freeze
timers stop with FROZEN and the expired mark clear (R18, R38, R171); no update is under way any more. Only the headers
of the entries held and the status page are written, and each entry raises its family's notice, where its final write
fails too, which is the model's choice (Log 49). Once the held entries are written the status writer makes a last update
unless it is FROZEN: the count grows by one, every record as it then stands and both counts are in the page, and a write
error is counted and leaves the update-end count as it was (section 10.5); that an update under way is completed in its
place is the model's choice (Log 16). Elsewhere the event changes nothing (Log 3). -/
def Obligations.CompletedStopEntersOff : Prop :=
  ∀ (s : State) (e : LinkErrs),
    (s.runState ≠ .stopping ∨ s.noRefresh = false → exec (.stopCompleted e) s = .next s) ∧
    (s.runState = .stopping → s.noRefresh = true → s.status.Aligned → ∃ t, exec (.stopCompleted e) s = .next t ∧
      t.runState = .off ∧ t.holds = [] ∧
      (∀ c, (t.chain c).state = .empty ∧ (t.chain c).cursor = none ∧ (t.chain c).lastSerial = (s.chain c).lastSerial) ∧
      (∀ x, (t.streams.get x).state = .idle ∧ (t.streams.get x).shown = none ∧
        (t.streams.get x).late = (s.streams.get x).late) ∧
      (∀ i, (t.screens.get i).plan = none ∧ (t.screens.get i).adm = Admission.reset ∧
        (t.screens.get i).overloads = (s.screens.get i).overloads) ∧
      t.status.timerOn = false ∧ t.status.frozen = false ∧ t.status.freezeOn = false ∧ t.status.expired = false ∧
      t.status.update = none ∧ t.camera = s.camera ∧ t.monitor = s.monitor ∧ t.link = s.link ∧ t.vehicle = s.vehicle ∧ t.guide = s.guide ∧
      t.chime = s.chime ∧ t.settings = s.settings ∧ t.pending = s.pending ∧
      (∀ h ∈ s.holds, t.regs.notice.getLsbD (family h.chain).bit = true) ∧
      (let at' := s.book + 0x1C00
       let next := s.status.count + 1
       let page := State.pageImage { t with runState := .stopping, status := s.status } next
       let fails := touches e.writes at' 9216
       let holds := fun (p : List Byte) (n : Nat) => ∀ k, n ≤ k → k < 9216 → ¬ (0x3C ≤ k ∧ k < 0x40) →
         Mem.get t.mem (at' + k) = p.getD k 0
       (s.status.update = none → s.status.frozen = true → t.status.count = s.status.count ∧
         t.status.pageErrors = s.status.pageErrors ∧
         ∀ a, (∀ h ∈ s.holds, ¬ (h.addr ≤ a ∧ a < h.addr + 8)) → Mem.get t.mem a = Mem.get s.mem a) ∧
       (s.status.update = none → s.status.frozen = false → t.status.count = next ∧
         t.status.pageErrors = (if fails then min (s.status.pageErrors + 1) 65535 else s.status.pageErrors) ∧
         (fails = false → s.book + 0x4000 ≤ 2 ^ 64 → holds page 0 ∧ page.length = 9216 ∧
           Mem.readLE t.mem at' 4 = next.toNat ∧ Mem.readLE t.mem (at' + 0x3C) 4 = next.toNat)) ∧
       (∀ u, s.status.update = some u → t.status.count = s.status.count ∧
         (touches e.writes (at' + u.pos) (9216 - u.pos) = false → touches e.writes (at' + 0x3C) 4 = false →
           t.status.pageErrors = s.status.pageErrors ∧ (u.page.length = 9216 → s.book + 0x4000 ≤ 2 ^ 64 →
             holds u.page u.pos ∧ Mem.readLE t.mem (at' + 0x3C) 4 = u.count.toNat))) ∧
       (fails = true → ((s.status.update = none ∧ s.status.frozen = false) ∨ (∃ u, s.status.update = some u ∧ u.pos = 4 ∧
           touches e.writes at' 4 = false)) →
         (∀ h ∈ s.holds, h.addr + 8 ≤ at' + 0x3C ∨ at' + 0x40 ≤ h.addr) →
         Mem.readLE t.mem (at' + 0x3C) 4 = Mem.readLE s.mem (at' + 0x3C) 4)) ∧
      (∀ a, (∀ h ∈ s.holds, ¬ (h.addr ≤ a ∧ a < h.addr + 8)) → ¬ (s.book + 0x1C00 ≤ a ∧ a < s.book + 0x4000) →
        Mem.get t.mem a = Mem.get s.mem a))

/-- At the end of a stop without write errors every held entry has its report word and its final state in memory: the
verdict recorded for it, or DONE when it was used and RELEASED when not, with the mark clear (section 1.7, R18). The
premises say that the held entries are aligned, lie apart from the status page and are told apart by their addresses. -/
def Obligations.StopRetiresEveryHeldEntry : Prop :=
  ∀ (s : State) (h : Hold), s.runState = .stopping → s.noRefresh = true → s.status.Aligned → h ∈ s.holds →
    (∀ k ∈ s.holds, k.addr % 16 = 0 ∧ k.addr + 16 ≤ 2 ^ 64 ∧
      (k.addr + 16 ≤ s.book + 0x1C00 ∨ s.book + 0x4000 ≤ k.addr)) →
    (∀ k ∈ s.holds, k.addr = h.addr → k = h) →
    ∃ t, exec (.stopCompleted ⟨[], []⟩) s = .next t ∧
      Mem.readLE t.mem h.addr 4 =
        (statusWord (match h.verdict with | some v => v | none => if h.used then .done else .released) false h.shed
          h.invalid).toNat ∧
      Mem.readLE t.mem (h.addr + 4) 4 = (reportWord h.count h.late).toNat

/-- CTRL.STANDBY written 1 in RUN is granted at once in NORMAL, ends LINGER and is then granted, and is held pending in
ACTIVE; in the other run states the bit alone is stored, and a bit already 1 changes nothing (R118, R170). Entering
STANDBY makes each refresh in progress its screen's last, disables capture, stops the tick, clears the admissions,
empties the queues, every entry in them receiving RELEASED with its plays as count or, held on by the cursor, keeping
that verdict, and keeps chains, streams, receiver, monitor and status writer; only headers of held entries are
written. -/
def Obligations.StandbyRequestIsAnsweredByTakeoverState : Prop :=
  ∀ s : State,
    (s.regs.standby = true → exec .standbyRequest s = .next s) ∧
    (s.regs.standby = false → s.runState ≠ .run →
      exec .standbyRequest s = .next { s with regs := { s.regs with standby := true } }) ∧
    (s.regs.standby = false → s.runState = .run → s.takeover.state = .active →
      exec .standbyRequest s = .next { s with regs := { s.regs with standby := true },
                                              takeover := { s.takeover with pendingStandby := true } }) ∧
    (s.regs.standby = false → s.runState = .run → s.takeover.state ≠ .active →
      ∃ t, exec .standbyRequest s = .next t ∧
        t.runState = .standby ∧ t.regs.standby = true ∧ t.takeover.state = .normal ∧ t.takeover.pendingStandby = false ∧
        (s.takeover.state = .linger → t.regs.notice.getLsbD 4 = true ∧ t.takeover.linger = none) ∧
        t.camera.enabled = false ∧ t.takeover.view = none ∧ t.capLoad = 0 ∧ t.takeover.losts = s.takeover.losts ∧
        (s.takeover.state = .normal ∨ s.camera.enabled = true → CaptureStops s t s.screens.centre.refresh.isNone) ∧
        t.guide = s.guide ∧ t.chime.tickOn = false ∧ t.chime.alertQ = [] ∧ t.chime.uiQ = [] ∧
        t.chime.alert = Voice.idle ∧ t.chime.ui = Voice.idle ∧ t.chime.cad = .off ∧ t.chime.pending = false ∧
        t.chime.audioOut = 0 ∧ t.chime.duck = false ∧ ChimesReleased s t ∧
        (∀ i, (t.screens.get i).adm = Admission.reset ∧ (t.screens.get i).plan = (s.screens.get i).plan ∧
          (match (s.screens.get i).refresh with
            | some r => (t.screens.get i).refresh = some { r with final := true }
            | none => (t.screens.get i).panel = .idle ∧ (t.screens.get i).genOn = false)) ∧
        t.chains = s.chains ∧ t.streams = s.streams ∧ t.link = s.link ∧ t.vehicle = s.vehicle ∧ t.monitor = s.monitor ∧
        t.status = s.status ∧ t.settings = s.settings ∧ t.pending = s.pending ∧
        (∀ a, (∀ h ∈ s.holds, ¬ (h.addr ≤ a ∧ a < h.addr + 8)) → Mem.get t.mem a = Mem.get s.mem a))

/-- CTRL.STANDBY written 0: in STANDBY the part returns to RUN, the timing generators and the chime tick start, and
capture is enabled exactly when its condition holds; in RUN a pending standby is cleared; in the other run states the
bit is stored (R118, R122, R170). No memory is written. -/
def Obligations.StandbyReturnResumesRun : Prop :=
  ∀ s : State,
    (s.regs.standby = false → exec .standbyReturn s = .next s) ∧
    (s.regs.standby = true → s.runState = .run →
      exec .standbyReturn s = .next { s with regs := { s.regs with standby := false },
                                             takeover := { s.takeover with pendingStandby := false } }) ∧
    (s.regs.standby = true → s.runState = .off ∨ s.runState = .starting ∨ s.runState = .stopping →
      exec .standbyReturn s = .next { s with regs := { s.regs with standby := false } }) ∧
    (s.regs.standby = true → s.runState = .standby → ∃ t, exec .standbyReturn s = .next t ∧
      t.runState = .run ∧ t.regs.standby = false ∧ t.regs.run = s.regs.run ∧ t.chime.tickOn = true ∧
      (∀ i, (t.screens.get i).genOn = true ∧ (t.screens.get i).nextStart = (s.settings.screens.get i).phase ∧
        (t.screens.get i).plan = (s.screens.get i).plan) ∧
      (∀ x, (t.streams.get x).state = (s.streams.get x).state ∧ (t.streams.get x).clock = (s.streams.get x).clock) ∧
      t.camera.enabled = (decide (s.takeover.state ≠ .normal) || s.screens.centre.hasCamera || s.settings.camera.warm) ∧
      CaptureJudged s t (decide (s.takeover.state ≠ .normal) || s.screens.centre.hasCamera || s.settings.camera.warm) false ∧
      t.takeover = { s.takeover with view := t.takeover.view, startLimit := t.takeover.startLimit
                                     silence := t.takeover.silence } ∧
      t.chains = s.chains ∧ t.holds = s.holds ∧ t.link = s.link ∧
      t.vehicle = s.vehicle ∧ t.monitor = s.monitor ∧ t.guide = s.guide ∧ t.status = s.status ∧ t.mem = s.mem ∧
      t.settings = s.settings ∧ t.pending = s.pending)

/-- CTRL.FREEZE written 1 is stored; in RUN, STANDBY and STOPPING with the expired mark clear it is a freeze request,
taken at once or, with an update under way, at its end. Written 0 it clears FROZEN, the freeze timer and the expired mark
and withdraws a waiting request. A running freeze timer that expires ends FROZEN, sets the expired mark and raises
FREEZE_EXPIRED (section 10.5); that the expiry event of a stopped one changes nothing is the model's choice (Log 3). No
memory is written. -/
def Obligations.FreezeIsRequestedClearedAndExpires : Prop :=
  ∀ s : State,
    (s.regs.freeze = true → exec .freezeRequest s = .next s) ∧
    (s.regs.freeze = false → s.runState = .off ∨ s.runState = .starting ∨ s.status.expired = true →
      exec .freezeRequest s = .next { s with regs := { s.regs with freeze := true } }) ∧
    (s.regs.freeze = false → s.runState = .run ∨ s.runState = .standby ∨ s.runState = .stopping →
      s.status.expired = false →
      exec .freezeRequest s = .next { s with
        regs := { s.regs with freeze := true }
        status :=
          match s.status.update with
          | some _ => { s.status with freezeWaiting := true }
          | none => { s.status with frozen := true, freezeOn := true, freezeWaiting := false } }) ∧
    (s.regs.freeze = false → exec .freezeClear s = .next s) ∧
    (s.regs.freeze = true → s.runState = .off ∨ s.runState = .starting →
      exec .freezeClear s = .next { s with regs := { s.regs with freeze := false } }) ∧
    (s.regs.freeze = true → s.runState = .run ∨ s.runState = .standby ∨ s.runState = .stopping →
      exec .freezeClear s = .next { s with
        regs := { s.regs with freeze := false }
        status := { s.status with frozen := false, freezeOn := false, expired := false, freezeWaiting := false } }) ∧
    (s.status.freezeOn = false → exec .freezeTimerExpiry s = .next s) ∧
    (s.status.freezeOn = true → exec .freezeTimerExpiry s = .next { s with
      regs := { s.regs with notice := s.regs.notice ||| 0x800 }
      status := { s.status with frozen := false, freezeOn := false, expired := true } })

/-- IRQ_ENABLE, NOTICE_CLEAR, NOTICE_MASK_WRITE and FORCE change their own register and nothing else, in every run
state: a write to NOTICE clears the flags written 1, the mask takes the thirteen assigned bits as written, FORCE sets
FORCED. A raise sets one flag and keeps the others. The interrupt line is asserted exactly while it is enabled and some
flag stands in both NOTICE and NOTICE_MASK (sections 10.1 and 10.2). -/
def Obligations.NoticesAreRaisedMaskedAndCleared : Prop :=
  ∀ s : State,
    (∀ v, exec (.irqEnable v) s = .next { s with regs := { s.regs with irqEnable := v } }) ∧
    (∀ v, exec (.noticeMaskWrite v) s = .next { s with regs := { s.regs with noticeMask := v &&& 0x1FFF } }) ∧
    (∀ v, ∃ n, exec (.noticeClear v) s = .next { s with regs := { s.regs with notice := n } } ∧
      ∀ k, k < 32 → n.getLsbD k = (s.regs.notice.getLsbD k && !v.getLsbD k)) ∧
    exec .force s = .next (s.raise .forced) ∧
    (∀ x : Notice, ∃ n, s.raise x = { s with regs := { s.regs with notice := n } } ∧
      ∀ k, k < 32 → n.getLsbD k = (s.regs.notice.getLsbD k || decide (k = x.bit))) ∧
    (s.irqLine = true ↔ s.regs.irqEnable = true ∧
      ∃ k, k < 32 ∧ s.regs.notice.getLsbD k = true ∧ s.regs.noticeMask.getLsbD k = true)

/-- A write to a register of the window does what the command of that register does: BOOKADDR whole or by halves, NOTICE,
NOTICE_MASK and CTRL, all but the first in 4-byte accesses at their own offsets; every other width or offset is ignored
(section 10.1, section 11.1). A CTRL write with SOFT_RESET is the reset alone; otherwise the order in which the bits act is
the model's choice (Log 8): IRQ_ENABLE, FORCE, DISMISS, RUN, STANDBY, FREEZE. -/
def Obligations.RegisterWritesActAsTheirCommands : Prop :=
  ∀ (s : State) (v : BitVec 64),
    let w : Word := v.setWidth 32
    exec (.registerWrite 0x00 8 v) s = exec (.bookaddrWrite (.whole v)) s ∧
    exec (.registerWrite 0x00 4 v) s = exec (.bookaddrWrite (.low w)) s ∧
    exec (.registerWrite 0x04 4 v) s = exec (.bookaddrWrite (.high w)) s ∧
    exec (.registerWrite 0x10 4 v) s = exec (.noticeClear w) s ∧
    exec (.registerWrite 0x14 4 v) s = exec (.noticeMaskWrite w) s ∧
    (v.getLsbD 31 = true → exec (.registerWrite 0x08 4 v) s = exec .softReset s) ∧
    (v.getLsbD 31 = false → ∃ a b c d f,
      exec (.irqEnable (v.getLsbD 3)) s = .next a ∧
      (if v.getLsbD 9 then exec .force a else .next a) = .next b ∧
      (if v.getLsbD 8 then exec .dismiss b else .next b) = .next c ∧
      (if v.getLsbD 0 then exec .start c else exec .stop c) = .next d ∧
      (if v.getLsbD 1 then exec .standbyRequest d else exec .standbyReturn d) = .next f ∧
      exec (.registerWrite 0x08 4 v) s = (if v.getLsbD 2 then exec .freezeRequest f else exec .freezeClear f)) ∧
    (∀ off width, ¬ (width = 8 ∧ off = 0) →
      ¬ (width = 4 ∧ (off = 0 ∨ off = 4 ∨ off = 8 ∨ off = 0x10 ∨ off = 0x14)) →
      exec (.registerWrite off width v) s = .next s)

/-! ## The status writer (section 10.5) -/

/-- An expiry of the running status timer begins an update unless the writer is FROZEN or one is under way: the count
grows by one, the whole page is copied at that moment and the count is written as its first word; that no more of the
page is written by then is the model's choice (Log 4). The page copied holds the records of Table 11-9 at their offsets
(of header, governor, chains, screens and streams each field is given), and 0 from 0x700 on; when the fault chime is in
use, that the fresh flags begin at bit 0, the note index of a play not yet sounding, and that a flag in a byte of its
own reads 1 when set are the model's readings (Logs 55 to 58), and so are what a voice shows in a release (Log 15) and
the zeros of an alive byte without a kept counter and of the invalid mask without a current plan (Logs 60 and 61). A page write error ends the update under way without its
update-end count and is counted; that a waiting freeze request then takes effect is the model's reading (Log 16), that
the words written so far stay written is its choice (Log 39). Nothing else changes (section 10.5). That the expiry event
of a stopped status timer and a page write error without an update change nothing is the model's choice (Log 3). -/
def Obligations.StatusUpdatesBeginAndFail : Prop :=
  ∀ s : State,
    (s.status.timerOn = false ∨ s.status.frozen = true ∨ s.status.update ≠ none →
      exec .statusTimerExpiry s = .next s) ∧
    (s.status.timerOn = true → s.status.frozen = false → s.status.update = none →
      exec .statusTimerExpiry s = .next { s with
        status := { s.status with
          count := s.status.count + 1
          update := some { count := s.status.count + 1, page := s.pageImage (s.status.count + 1), pos := 4 } }
        mem := Mem.writeLE s.mem (s.book + 0x1C00) 4 (s.status.count + 1).toNat }) ∧
    (s.status.update = none → exec .pageWriteError s = .next s) ∧
    (s.status.update ≠ none → exec .pageWriteError s = .next { s with
      status := { s.status with
        pageErrors := min (s.status.pageErrors + 1) 65535
        update := none
        frozen := s.status.frozen || s.status.freezeWaiting
        freezeOn := s.status.freezeOn || s.status.freezeWaiting
        freezeWaiting := false } }) ∧
    (∀ n : Word,
      let page := s.pageImage n
      let field := fun at' size : Nat => (List.range size).foldr (fun k v => (page.getD (at' + k) 0).toNat + 256 * v) 0
      let record := fun at' size : Nat => (page.drop at').take size
      let screen := fun i : ScreenId => match i with | .centre => 0x40 | .left => 0xC0 | .right => 0x140
      let stream := fun x : StreamId => match x with | .a => 0x200 | .b => 0x280
      page.length = 9216 ∧
      field 0 4 = n.toNat ∧ field 4 2 = s.status.pageErrors % 2 ^ 16 ∧
      field 6 1 = (match s.settings.cellState with | .absent => 0 | .inUse => 1 | .rejected => 2) ∧
      field 8 4 = s.stateWord.toNat ∧ page.getD 7 0 = 0 ∧ (∀ k, 12 ≤ k → k < 0x40 → page.getD k 0 = 0) ∧
      (∀ i, record (screen i) 0x80 = recordBytes 0x80 (s.screenFields i)) ∧
      field 0x1C0 4 = s.settings.budget % 2 ^ 32 ∧ field 0x1C4 4 = s.capLoad % 2 ^ 32 ∧
      (∀ k, 0x1C8 ≤ k → k < 0x200 → page.getD k 0 = 0) ∧
      (∀ x, record (stream x) 0x80 = recordBytes 0x80 (s.streamFields x)) ∧
      record 0x300 0x80 = recordBytes 0x80 s.vehicleFields ∧ record 0x380 0x80 = recordBytes 0x80 s.reverseFields ∧
      record 0x400 0x100 = recordBytes 0x100 s.guideFields ∧ record 0x500 0x200 = recordBytes 0x200 s.chimeFields ∧
      (∀ k, 0x700 ≤ k → page.getD k 0 = 0) ∧
      (∀ c, let ch := s.chain c
        let at' := match c with | .plan i => screen i | .film x => stream x | .chime => 0x500
        field at' 1 = (match ch.state with | .empty => 0 | .running => 1 | .faulted => 2) ∧
        field (at' + 1) 1 = (match ch.cause with
          | .none => 0 | .address => 1 | .alignment => 2 | .loop => 3 | .readError => 4 | .linkRead => 5 | .rootRead => 6
          | .writeError => 7 | .kind => 8) ∧
        field (at' + 4) 4 = ch.lastSerial.toNat ∧
        field (at' + 8) 8 = (match ch.cursor with | some a => a % 2 ^ 64 | none => 0) ∧
        field (at' + 16) 8 = ch.faultAddr % 2 ^ 64 ∧ field (at' + 24) 2 = ch.faults % 2 ^ 16 ∧
        field (at' + 26) 2 = ch.rootReadErrors % 2 ^ 16 ∧ field (at' + 28) 2 = ch.statusWriteErrors % 2 ^ 16) ∧
      (∀ i, let sc := s.screens.get i
        let at' := screen i
        field (at' + 32) 8 = (match sc.plan with | some p => p.addr % 2 ^ 64 | none => 0) ∧
        field (at' + 40) 1 = (match sc.plan, sc.mode with
          | none, _ => 3 | some _, .normal => 0 | some _, .invert => 1 | some _, .blank => 2 | some _, .dark => 3) ∧
        field (at' + 41) 1 = (match sc.panel with | .idle => 0 | .sending => 1) ∧
        field (at' + 42) 1 = sc.duty % 256 ∧ field (at' + 43) 1 = (if sc.adm.overload then 1 else 0) ∧
        field (at' + 44) 1 = sc.adm.mask.toNat ∧
        field (at' + 45) 1 = (match sc.plan with | some p => p.invalid.toNat | none => 0) ∧
        field (at' + 46) 2 = sc.overloads % 2 ^ 16 ∧ field (at' + 48) 4 = sc.adm.load % 2 ^ 32 ∧
        field (at' + 52) 2 = sc.fetchErrors % 2 ^ 16 ∧ field (at' + 54) 2 = sc.glyphClamps % 2 ^ 16) ∧
      (∀ x, let y := s.streams.get x
        let at' := stream x
        field (at' + 32) 1 = (match y.state with
          | .idle => 0 | .priming => 1 | .playing => 2 | .paused => 3 | .starved => 4 | .ended => 5 | .faulted => 6) ∧
        field (at' + 33) 1 = (match y.req with | .stop => 0 | .run => 1 | .pause => 2) ∧
        field (at' + 34) 1 = (match y.pacing with | .centre => 0 | .left => 1 | .right => 2) ∧
        field (at' + 35) 1 = y.fine % 256 ∧ field (at' + 36) 2 = y.interval % 2 ^ 16 ∧
        field (at' + 38) 2 = y.late % 2 ^ 16 ∧ field (at' + 40) 4 = y.clock.toNat ∧
        field (at' + 44) 4 = (BitVec.ofInt 32 y.balance).toNat ∧ field (at' + 48) 4 = y.nudgeSerial.toNat ∧
        field (at' + 52) 4 = (match y.shown with | some f => f.pts.toNat | none => 0) ∧
        field (at' + 56) 8 = (match y.shown with | some f => f.addr % 2 ^ 64 | none => 0) ∧
        field (at' + 64) 2 = y.starves % 2 ^ 16 ∧ field (at' + 66) 2 = y.recErrors % 2 ^ 16))

/-- The end of an update: the bytes of the copied page from the update's position on stand in the status page, the
update-end count holds the update's count, every byte outside the page and every byte before that position stands as
before, and a freeze request that waited takes effect (section 10.5). How far an update has come, and that the words left
are written at its end, is the model's choice (Log 4). Without an update under way the event changes nothing, which is the
model's choice (Log 3). -/
def Obligations.StatusUpdateEndsWithTheWholePage : Prop :=
  ∀ s : State,
    (s.status.update = none → exec .statusUpdateEnd s = .next s) ∧
    (∀ u, s.status.update = some u → u.pos % 4 = 0 → u.page.length = 9216 → s.book + 0x4000 ≤ 2 ^ 64 → ∃ m,
      exec .statusUpdateEnd s = .next { s with
        mem := m
        status := { s.status with
          update := none
          frozen := s.status.frozen || s.status.freezeWaiting
          freezeOn := s.status.freezeOn || s.status.freezeWaiting
          freezeWaiting := false } } ∧
      Mem.readLE m (s.book + 0x1C00 + 0x3C) 4 = u.count.toNat ∧
      (∀ k, u.pos ≤ k → k < 9216 → ¬ (0x3C ≤ k ∧ k < 0x40) → Mem.get m (s.book + 0x1C00 + k) = u.page.getD k 0) ∧
      (∀ k, k < u.pos → ¬ (0x3C ≤ k ∧ k < 0x40) → Mem.get m (s.book + 0x1C00 + k) = Mem.get s.mem (s.book + 0x1C00 + k)) ∧
      (∀ a, a < s.book + 0x1C00 ∨ s.book + 0x4000 ≤ a → Mem.get m a = Mem.get s.mem a))

/-- A status write error: the chain goes FAULTED with cause WRITE_ERROR and the entry's address, the failure is counted,
an entry into FAULTED is counted and raises CHAIN_FAULT, the hold records stay, and the word holds a value the spec leaves
open (section 1.6; Log 6: the statement holds for every value). Nothing else changes. In OFF and STARTING no write
is under way and nothing changes (Log 6). -/
def Obligations.StatusWriteErrorFaultsTheChain : Prop :=
  ∀ (s : State) (c : ChainId) (addr : BitVec 64) (w : EntryWord),
    let at' := addr.toNat + (match w with | .status => 0 | .report => 4)
    let ch := s.chain c
    let newly : Bool := decide (ch.state ≠ .faulted)
    (s.runState = .off ∨ s.runState = .starting → exec (.statusWriteError c addr w) s = .next s) ∧
    (s.runState = .run ∨ s.runState = .standby ∨ s.runState = .stopping →
      ∃ t k, exec (.statusWriteError c addr w) s = .next t ∧
        t = { s with chains := t.chains, mem := Mem.writeLE s.mem at' 4 (Config.lostWord k).toNat,
                     freeIx := s.freeIx + 1,
                     regs := { s.regs with notice := if newly then s.regs.notice ||| 0x80 else s.regs.notice } } ∧
        k = s.freeIx ∧
        t.chain c = { ch with state := .faulted, cause := .writeError, faultAddr := addr.toNat,
                              statusWriteErrors := bump ch.statusWriteErrors,
                              faults := if newly then bump ch.faults else ch.faults } ∧
        (∀ d, d ≠ c → t.chain d = s.chain d) ∧
        (∀ a, a < at' ∨ at' + 4 ≤ a → Mem.get t.mem a = Mem.get s.mem a))

/-! ## Screens and their refreshes (Chapters 2 and 3) -/

/-- FRAME_START of a running screen in RUN: a new refresh begins at position 0 with no fetch failed and its cover mark
from the motion state; the next frame start falls one period on; mode, panel and duty follow the current plan, or the
takeover picture on the centre while the takeover state is not NORMAL (sections 2.3 to 2.5, 3.1 and 3.5). The plan is
the one the plan advance leaves, the streams are what the pacing refreshes leave, stream A's made before stream B's
where it paces both (Log 54), and at the centre capture is judged after the plan advance, the buffer roles are rotated
and, in a camera refresh that is LIVE, the guide lines interpolated and the marker placed; a camera refresh is one that
shows the takeover picture or, in NORMAL or INVERT, draws a CAMERA layer that is neither shed nor a restricted cover
(sections 7.6, 7.7, 8.3 and 8.6). The composition set holds each valid layer of the plan with its shed mark, the frame
shown of its stream where it is a drawn FILM layer, and its scroll latched, with the view status, the SHOWN buffer and
the guide set record (section 3.1). The screen's references are then on the current plan and on those frames, and an
entry that has lost its last hold with them is held no more (section 1.6). The current plan's count of refreshes shown
grows by one, but not while the takeover picture is shown (section 2.3). The old refresh's last pixel and its clamps are
those of its end. That outside RUN or with the generator stopped nothing changes is the model's choice (Log 3), as is
the clear cover mark of a refresh that shows the takeover picture (Log 59). Everything outside the screen's own blocks
stands as it was, and of host memory only the status and report words of entries held before or reached in it are
written (sections 1.2 and 1.6). -/
def Obligations.FrameStartBeginsARefresh : Prop :=
  ∀ (s : State) (i : ScreenId) (e : LinkErrs),
    (s.runState ≠ .run ∨ (s.screens.get i).genOn = false → exec (.frameStart i e) s = .next s) ∧
    (s.runState = .run → (s.screens.get i).genOn = true → ∃ t r, exec (.frameStart i e) s = .next t ∧
      let was := s.screens.get i
      let now := t.screens.get i
      let shows : Bool := decide (i = .centre) && decide (s.takeover.state ≠ .normal)
      let mode := match now.plan with | some p => p.mode | none => .dark
      let adm := s.admitted i e
      now.plan = (((s.finishRefresh i).planAdvance i e).screens.get i).plan ∧
      t.streams = (adm.paceStreams i was.nextStart e).streams ∧
      (i = .centre → t.camera = (adm.rotateBuffers adm.cameraRefresh).camera ∧
        t.takeover = (adm.rotateBuffers adm.cameraRefresh).takeover ∧ t.capLoad = adm.capLoad ∧
        CaptureJudged s adm (shows || s.settings.camera.warm || (match now.plan with
          | some p => p.layers.any (fun l => decide (l.layer.kind = .camera))
          | none => false)) false ∧
        (adm.cameraRefresh = true ↔ shows = true ∨ ((mode = .normal ∨ mode = .invert) ∧ ∃ p l, now.plan = some p ∧
          l ∈ p.layers ∧ l.layer.kind = .camera ∧ now.adm.mask.getLsbD l.idx = false ∧
          ¬ (l.layer.restricted = true ∧ s.vehicle.motion ≠ .still))) ∧
        t.guide = (if adm.cameraRefresh = true ∧ t.takeover.view = some .live then s.guide.interpolate.placeMarker
          else s.guide)) ∧
      now.refresh = some r ∧ r.pos = 0 ∧ r.failed = [] ∧ r.clamped = [] ∧ r.final = false ∧
      r.cover = (decide (i = .centre) && !shows && decide (s.vehicle.motion ≠ .still)) ∧
      r.set.mode = mode ∧ r.set.takeover = shows ∧ r.set.panel = now.panel ∧ r.set.blinkOn = s.blinkOn ∧
      r.set.background = (s.settings.screens.get i).background ∧
      (let drawn := fun l : PlanLayer => !shows && (decide (mode = .normal) || decide (mode = .invert)) &&
         !now.adm.mask.getLsbD l.idx &&
         !(decide (i = .centre) && l.layer.restricted && decide (s.vehicle.motion ≠ .still))
       let latched := fun l : Layer => l.cells.scroll % (l.cells.rows * 16)
       let cam := t.camera.roles
       r.set.layers = (match now.plan with | some p => p.layers | none => []).map (fun l : PlanLayer =>
         { idx := l.idx, layer := l.layer, shed := now.adm.mask.getLsbD l.idx
           frame := if drawn l && decide (l.layer.kind = LayerKind.film) then
               (match l.layer.stream with | some x => (t.streams.get x).shown | none => none) else none
           scroll := if l.layer.kind = LayerKind.cells then latched l.layer else 0 }) ∧
       r.set.view = t.takeover.view ∧ r.set.guide = t.guide.set ∧
       r.set.shown = (if cam.b0 = .shown then some 0 else if cam.b1 = .shown then some 1
         else if cam.b2 = .shown then some 2 else none) ∧
       r.set.cellScroll = (match s.settings.cellLayer with | some l => latched l | none => 0)) ∧
      (∀ c a h, t.hold? c a = some h → h.refs.get i = (match c with
        | .plan j => decide (j = i) && decide (now.plan.map (·.addr) = some a)
        | .film x => r.set.layers.any (fun l =>
            decide (l.layer.stream = some x) && decide (l.frame.map (·.addr) = some a))
        | .chime => false)) ∧
      (∀ c a h k, s.hold? c a = some h → h.refs.get i = true → t.hold? c a = some k → k.isFree = false) ∧
      (∀ p h, now.plan = some p → ((s.finishRefresh i).planAdvance i e).hold? (.plan i) p.addr = some h → h.client = true →
        ∃ k, t.hold? (.plan i) p.addr = some k ∧ k.client = true ∧ k.used = h.used ∧ k.verdict = h.verdict ∧
          k.late = h.late ∧ k.invalid = h.invalid ∧ k.count = (if shows then h.count else min (h.count + 1) 65535)) ∧
      now.mode = mode ∧ now.showsTakeover = shows ∧ now.genOn = true ∧
      now.panel = (if shows = false ∧ mode = .dark then .idle else .sending) ∧
      now.duty = (if shows then max (s.settings.takeoverBrightness * s.vehicle.dimInUse / 255) s.settings.brightnessFloor
        else match now.plan with
          | some p => if p.mode = .dark then 0 else p.brightness * s.vehicle.dimInUse / 255
          | none => 0) ∧
      now.dutyOut = was.dutyOut ∧ now.fetchErrors = was.fetchErrors ∧ now.coverKept = was.coverKept ∧
      now.glyphClamps = ((s.finishRefresh i).screens.get i).glyphClamps ∧
      now.pixelOut = ((s.finishRefresh i).screens.get i).pixelOut ∧
      now.nextStart = was.nextStart + (s.settings.screens.get i).period ∧
      (∀ j, j ≠ i → t.screens.get j = s.screens.get j ∧ t.chain (.plan j) = s.chain (.plan j)) ∧
      t.chain .chime = s.chain .chime ∧
      (∀ x, (s.streams.get x).pacing ≠ i → t.streams.get x = s.streams.get x ∧ t.chain (.film x) = s.chain (.film x)) ∧
      (i ≠ .centre → t.camera = s.camera ∧ t.guide = s.guide ∧ t.takeover = s.takeover ∧ t.capLoad = s.capLoad) ∧
      t.takeover.state = s.takeover.state ∧ t.takeover.reverse = s.takeover.reverse ∧
      t = { s with screens := t.screens, streams := t.streams, chains := t.chains, holds := t.holds, mem := t.mem,
                   freeIx := t.freeIx, camera := t.camera, guide := t.guide, takeover := t.takeover, capLoad := t.capLoad,
                   regs := { s.regs with notice := t.regs.notice } } ∧
      (∀ a, (∀ h ∈ s.holds, ¬ (h.addr ≤ a ∧ a < h.addr + 8)) →
        (∀ n ∈ s.frameReached i e, ¬ (n ≤ a ∧ a < n + 8)) → Mem.get t.mem a = Mem.get s.mem a))

/-- The admission at a frame start of a screen in RUN (section 2.6). The demand is the sum of the loads of Table 2-5 of the
plan's valid layers, each from its visible area and the screen's period, and 0 for each of them in BLANK and DARK and under
a restricted cover; in takeover it is the load of the camera picture and of the takeover cell layer. It is admitted by
shedding (stated below) against the budget less the other screens' admitted loads and the capture load. The admission law:
after it either the three admitted loads and the counted capture load stay within the budget, or the screen is overloaded
and has shed every layer of nonzero shed rank. An overload flag set anew is counted and raises OVERLOAD, and the shed mask
is recorded for the current plan. That a screen in BLANK or DARK is judged all the same, each layer at 0, is the model's
reading (Log 11). -/
def Obligations.AdmissionLawHoldsAfterAFrameStart : Prop :=
  ∀ (s : State) (i : ScreenId) (e : LinkErrs), s.runState = .run → (s.screens.get i).genOn = true →
    ∃ t, exec (.frameStart i e) s = .next t ∧
      let now := t.screens.get i
      let adm := now.adm
      let scr := s.settings.screens.get i
      let cam := s.settings.camera
      let others : Int := match i with
        | .centre => t.screens.left.adm.load + t.screens.right.adm.load
        | .left => t.screens.centre.adm.load + t.screens.right.adm.load
        | .right => t.screens.centre.adm.load + t.screens.left.adm.load
      let avail : Int := s.settings.budget - others - t.capLoad
      let ceil := fun n d : Nat => (n + d - 1) / d
      let area := fun (x y : Int) (w h : Nat) =>
        (min (x + w) scr.width - max x 0).toNat * (min (y + h) scr.height - max y 0).toNat
      let load := fun l : Layer =>
        let v := area l.x l.y l.w l.h
        if now.mode = .blank ∨ now.mode = .dark ∨ (i = .centre ∧ l.restricted = true ∧ s.vehicle.motion ≠ .still) then 0
        else match l.kind, l.format with
          | .picture, some .rgb565 => ceil (v * 2 * 1440) scr.period
          | .picture, some _ => ceil (v * 4 * 1440) scr.period
          | .film, _ => ceil (v * 4 * 1440) scr.period
          | .cells, _ => ceil (v * 1440) (2 * scr.period)
          | .camera, _ => ceil (v * 2 * 1440) scr.period
          | _, _ => 0
      let takeover := ceil (area cam.originX cam.originY cam.width cam.height * 2 * 1440) scr.period +
        (match s.settings.cellLayer with
          | some l => ceil (area l.x l.y l.w l.h * 1440) (2 * scr.period)
          | none => 0)
      let was := s.screens.get i
      let newly := adm.overload && !was.adm.overload
      now.overloads = (if newly then min (was.overloads + 1) 65535 else was.overloads) ∧
      t.regs.notice.getLsbD 8 = (s.regs.notice.getLsbD 8 || newly) ∧
      (∀ p h, now.plan = some p → t.hold? (.plan i) p.addr = some h → h.shed = adm.mask) ∧
      adm = (if now.showsTakeover then shedLoop [] takeover avail 0
        else shedLoop ((shedOrder now.planLayers).map (fun l => ⟨l.idx, load l.layer⟩))
          (now.planLayers.map (fun l => load l.layer)).sum avail 0) ∧
      ((t.screens.centre.adm.load + t.screens.left.adm.load + t.screens.right.adm.load + t.capLoad ≤ s.settings.budget ∧
        adm.overload = false) ∨
      (adm.overload = true ∧ s.settings.budget <
          t.screens.centre.adm.load + t.screens.left.adm.load + t.screens.right.adm.load + t.capLoad ∧
        (now.showsTakeover = false →
          ∀ l ∈ now.planLayers, l.layer.rank ≠ 0 → l.layer.rank ≤ 7 → l.idx < 6 → adm.mask.getLsbD l.idx = true)))

/-- Shedding (section 2.6): layers leave the demand in descending shed rank, frontmost first within a rank, none of rank
0; the governor stops at the first demand that fits, and the screen is overloaded only when all have been shed. -/
def Obligations.LayersAreShedInOrderUntilTheDemandFits : Prop :=
  (∀ ls : List PlanLayer, (∀ l ∈ ls, l.layer.rank ≤ 7) → ls.Pairwise (fun a b => a.idx < b.idx) →
    (shedOrder ls).Pairwise
      (fun a b => b.layer.rank < a.layer.rank ∨ (a.layer.rank = b.layer.rank ∧ b.idx < a.idx)) ∧
    ∀ l, l ∈ shedOrder ls ↔ l ∈ ls ∧ l.layer.rank ≠ 0) ∧
  (∀ (cs : List Shedable) (d : Nat) (avail : Int), (cs.map (·.load)).sum ≤ d →
    let a := shedLoop cs d avail 0
    ∃ n, n ≤ cs.length ∧ a.load = d - ((cs.take n).map (·.load)).sum ∧
      (∀ k, k < 6 → (a.mask.getLsbD k = true ↔ ∃ c ∈ cs.take n, c.idx = k)) ∧
      (∀ k, k < n → avail < ((d - ((cs.take k).map (·.load)).sum : Nat) : Int)) ∧
      (a.overload = false → (a.load : Int) ≤ avail) ∧
      (a.overload = true → n = cs.length ∧ avail < (a.load : Int)))

/-- The plan advance (section 2.3): a screen takes the last valid plan its walk was handed; without one it keeps its plan,
unless the root's serial had changed, upon which it has none; a failed read of the serial changes no plan. What the serial
check reads and answers, and what it leaves of the chain, is stated of the walk below. A plan's layer records are read one
after another to the first whose more flag is clear, and a plan is valid when its mode is one of the four and its sixth
record, if it has one, has that flag clear (section 2.2). The plan taken has its client hold and a count of 0, a valid one
passed over is SKIPPED and any other REJECTED, each held on only where it bears the cursor, and else written so with a
report of 0; the plan replaced or dropped loses its client hold and the screen's reference, and one that stays keeps its
holds and its count. Each layer of the plan taken is judged: its size is 1 to 4096 each way and its place -4096 to 4095, a
PICTURE has a format, a stride and a surface in the window, a FILM layer a stream, a CELLS layer what section 5.1 asks, and
a CAMERA layer the centre screen; the valid ones are kept in record order, the invalid mask marks the others, and it stands
in the plan's hold record and in the status word written for it. The words on hold records rest on premises that every step
keeps, stated below: the entry a cursor stands on is held, and entries held are placed on multiples of 16. -/
def Obligations.PlanAdvanceTakesTheLastValidPlan : Prop :=
  (∀ (s : State) (i : ScreenId) (e : LinkErrs),
    let q := s.checkSerial (.plan i) e
    let handed := (q.2.pollWalk readPlan (.plan i) e).1
    let isValid := fun h : Handed PlanBody => h.body.mode.isSome && !h.body.tooLong
    let valid := handed.filter isValid
    let t := s.planAdvance i e
    let was := (s.screens.get i).plan
    (t.screens.get i).plan =
      (if q.1 = .failed then was
      else match valid.getLast?, q.1 with
        | some h, _ => some (takePlan s.settings i h.addr h.body)
        | none, .changed => none
        | none, _ => was) ∧
    (∀ j, j ≠ i → t.screens.get j = s.screens.get j) ∧
    (s.CursorsHeld → q.1 ≠ .failed → ∀ h ∈ handed,
      let taken : Prop := valid.getLast?.map (·.addr) = some h.addr
      let last : Prop := handed.getLast?.map (·.addr) = some h.addr
      let verdict : EntryState := if isValid h then .skipped else .rejected
      let placed : Prop := s.HoldsPlaced ∧ s.settings.windowBase + s.settings.windowSize ≤ 2 ^ 64
      (¬ taken → ¬ last → t.hold? (.plan i) h.addr = none ∧
        (placed → Mem.readLE t.mem h.addr 4 = (statusWord verdict false 0 0).toNat ∧ Mem.readLE t.mem (h.addr + 4) 4 = 0)) ∧
      (taken ∨ last → ∃ k, t.hold? (.plan i) h.addr = some k ∧ (k.cursor = true ↔ last) ∧ (k.client = true ↔ taken) ∧
        k.refs = ⟨false, false, false⟩ ∧ k.written = some k.heldWord ∧ k.count = 0 ∧ k.late = 0 ∧ k.shed = 0 ∧
        (placed → Mem.readLE t.mem h.addr 4 = (statusWord .taken k.cursor 0 k.invalid).toNat) ∧
        (taken → k.used = true ∧ k.verdict = none ∧ k.invalid = (takePlan s.settings i h.addr h.body).invalid) ∧
        (¬ taken → k.invalid = 0 ∧ k.verdict = some verdict))) ∧
    (∀ p h, was = some p → q.1 = .failed ∨ (valid = [] ∧ q.1 ≠ .changed) → s.hold? (.plan i) p.addr = some h →
      h.client = true → ∃ k, t.hold? (.plan i) p.addr = some k ∧ k.client = true ∧ k.refs = h.refs ∧ k.used = h.used ∧
        k.verdict = h.verdict ∧ k.count = h.count ∧ k.late = h.late ∧ k.invalid = h.invalid) ∧
    (∀ p k, was = some p → q.1 ≠ .failed → valid ≠ [] ∨ q.1 = .changed → (∀ h ∈ handed, h.addr ≠ p.addr) →
      t.hold? (.plan i) p.addr = some k → k.client = false ∧ k.refs.get i = false)) ∧
  (∀ (s : State) (e : LinkErrs) (a : Nat) (b : PlanBody), readPlan s e a = .ok b →
    let more := fun k : Nat => (readLayer s.mem (a + 32 + 48 * k)).more
    let n := b.layers.length
    b.mode = modeOf (Mem.readLE s.mem (a + 20) 1) ∧ b.brightness = Mem.readLE s.mem (a + 21) 1 ∧
    1 ≤ n ∧ n ≤ 6 ∧ b.layers = (List.range n).map (fun k => readLayer s.mem (a + 32 + 48 * k)) ∧
    (∀ k, k + 1 < n → more k = true) ∧ (more (n - 1) = true → n = 6) ∧ b.tooLong = more (n - 1)) ∧
  (∀ (st : Settings) (i : ScreenId) (a : Nat) (b : PlanBody),
    let p := takePlan st i a b
    p.addr = a ∧ (∀ m, b.mode = some m → p.mode = m) ∧ p.brightness = b.brightness ∧
    p.layers = (b.layers.zipIdx.filter (fun x => x.1.valid st i)).map (fun x => ⟨x.2, x.1⟩) ∧
    ∀ n, n < 6 → (p.invalid.getLsbD n = true ↔ ∃ l, b.layers[n]? = some l ∧ l.valid st i = false)) ∧
  (∀ (st : Settings) (i : ScreenId) (l : Layer),
    let c := l.cells
    let inside := fun a n : Nat => st.windowBase ≤ a ∧ a + n ≤ st.windowBase + st.windowSize
    l.valid st i = true ↔
      (1 ≤ l.w ∧ l.w ≤ 4096 ∧ 1 ≤ l.h ∧ l.h ≤ 4096 ∧ -4096 ≤ l.x ∧ l.x ≤ 4095 ∧ -4096 ≤ l.y ∧ l.y ≤ 4095) ∧
      (match l.kind with
        | .fill => True
        | .picture => ∃ f, l.format = some f ∧ l.w * f.bytes ≤ l.stride ∧ l.stride % 16 = 0 ∧
            inside l.surface (l.stride * (l.h - 1) + l.w * f.bytes)
        | .film => l.stream ≠ none
        | .cells => (1 ≤ c.cols ∧ c.cols ≤ 128 ∧ 1 ≤ c.rows ∧ c.rows ≤ 128 ∧ 1 ≤ l.glyphs ∧ l.glyphs ≤ 1024) ∧
            (c.map % 16 = 0 ∧ c.sheet % 16 = 0 ∧ c.palette % 16 = 0) ∧
            (l.focusOn = true → c.col0 ≤ c.col1 ∧ c.col1 ≤ c.cols - 1 ∧ c.row0 ≤ c.row1 ∧ c.row1 ≤ c.rows - 1) ∧
            inside c.map (c.cols * c.rows * 4) ∧ inside c.sheet (l.glyphs * 128) ∧ inside c.palette 1024
        | .camera => i = .centre
        | .unknown _ => False))

/-- REFRESH_COMPLETED of a screen's last refresh: the pipe holds none, the panel goes IDLE, the backlight inactive, and the
centre's SHOWN camera buffer becomes FREE; the refresh's cover mark is kept (sections 2.1, 2.4, 2.5, 3.1, 3.8 and 7.6); a
generator that started again meanwhile runs on (Log 23). That the duty value is 0 then, and not the output alone, is the
model's choice (Log 41). Without a last refresh in progress nothing changes (Log 3). No memory is written. -/
def Obligations.LastRefreshPutsItsScreenAtRest : Prop :=
  ∀ (s : State) (i : ScreenId),
    ((∀ r, (s.screens.get i).refresh = some r → r.final = false) → exec (.refreshCompleted i) s = .next s) ∧
    (∀ r, (s.screens.get i).refresh = some r → r.final = true → ∃ t, exec (.refreshCompleted i) s = .next t ∧
      (t.screens.get i).refresh = none ∧ (t.screens.get i).panel = .idle ∧ (t.screens.get i).duty = 0 ∧
      (t.screens.get i).dutyOut = 0 ∧ (t.screens.get i).genOn = decide (s.runState = .run) ∧
      (t.screens.get i).plan = (s.screens.get i).plan ∧ (t.screens.get i).adm = (s.screens.get i).adm ∧
      (t.screens.get i).fetchErrors = (s.screens.get i).fetchErrors ∧ (t.screens.get i).coverKept = r.cover ∧
      (t.screens.get i).glyphClamps = ((s.finishRefresh i).screens.get i).glyphClamps ∧
      (t.screens.get i).pixelOut = ((s.finishRefresh i).screens.get i).pixelOut ∧
      (∀ j, j ≠ i → t.screens.get j = s.screens.get j) ∧
      t = { s with screens := t.screens, camera := t.camera } ∧
      (i ≠ .centre → t.camera = s.camera) ∧
      (i = .centre → (roleCount s.camera.roles .shown ≤ 1 → roleCount t.camera.roles .shown = 0) ∧
        t.camera = { s.camera with roles := t.camera.roles }))

/-- FETCH_ERROR on an element the refresh in progress reads: its mark is set for the rest of the refresh and counted
once; a further failure of the same element, or one of an element the refresh does not read, changes nothing (section
3.7; Log 27). A refresh outside takeover in NORMAL or INVERT reads for a layer that is neither shed nor a restricted
cover and of which some pixel on the active area takes its value from memory: of a PICTURE layer, of a FILM layer inside
its frame, of a CELLS layer within the map, and of a CAMERA layer inside the camera picture, read in LOST and in LIVE
from the buffer SHOWN alone, but never of a FILL layer; a takeover refresh reads so for the camera picture and for the
takeover cell layer (R43, R50, R88, R95, R121). A layer whose mark is set is composed as a fill of its own colour and
opacity (R56); that a plan's CAMERA layer then draws no guide lines, of which R131 says otherwise, is the model's choice
(Log 44). -/
def Obligations.FetchErrorMarksAnElementOnce : Prop :=
  ∀ (s : State) (i : ScreenId) (x : FetchElement),
    ((∀ r, (s.screens.get i).refresh = some r →
        r.set.panel = .idle ∨ r.reads s.settings (s.settings.screens.get i) x = false ∨ x ∈ r.failed) →
      exec (.fetchError i x) s = .next s) ∧
    (∀ r, (s.screens.get i).refresh = some r → r.set.panel = .sending →
      r.reads s.settings (s.settings.screens.get i) x = true → x ∉ r.failed →
      exec (.fetchError i x) s = .next (s.modScreen i (fun sc =>
        { sc with fetchErrors := min (sc.fetchErrors + 1) 65535
                  refresh := some { r with failed := x :: r.failed } }))) ∧
    (∀ (r : Refresh) (l : SetLayer) (col row : Nat) (dst : Rgb), .layer l.idx ∈ r.failed → l.shed = false →
      (l.layer.restricted && r.cover) = false →
      drawLayer s r col row dst l =
        if layerPixel l.layer.x l.layer.y l.layer.w l.layer.h col row = none then dst
        else blend l.layer.opacity l.layer.fill dst) ∧
    (∀ (r : Refresh) (st : Settings) (sc : ScreenSettings),
      let cam := st.camera
      let picture : Prop := r.set.view = some .live ∧ r.set.shown ≠ none ∨ r.set.view = some .lost
      let seen := fun (x y : Int) (w h : Nat) (p : Nat → Nat → Prop) => ∃ i j, i < w ∧ j < h ∧ p i j ∧
        0 ≤ x + i ∧ x + i < sc.width ∧ 0 ≤ y + j ∧ y + j < sc.height
      (∀ n, r.reads st sc (.layer n) = true ↔ r.set.takeover = false ∧ (r.set.mode = .normal ∨ r.set.mode = .invert) ∧
        ∃ l ∈ r.set.layers, l.idx = n ∧ l.shed = false ∧ ¬ (l.layer.restricted = true ∧ r.cover = true) ∧
          let y := l.layer
          match y.kind with
          | .picture => seen y.x y.y y.w y.h (fun _ _ => True)
          | .film => ∃ f, l.frame = some f ∧ seen y.x y.y y.w y.h (fun i j => i < f.width ∧ j < f.height)
          | .cells => seen y.x y.y y.w y.h (fun i _ => i / 16 < y.cells.cols)
          | .camera => picture ∧ seen y.x y.y y.w y.h (fun i j => i < cam.width ∧ j < cam.height)
          | .fill => False
          | .unknown _ => False) ∧
      (r.reads st sc .takeoverCamera = true ↔ r.set.takeover = true ∧ picture ∧
        seen cam.originX cam.originY cam.width cam.height (fun _ _ => True)) ∧
      (r.reads st sc .takeoverCells = true ↔ r.set.takeover = true ∧ ∃ l, st.cellLayer = some l ∧
        seen l.x l.y l.w l.h (fun i _ => i / 16 < l.cells.cols)))

/-- PWM_PERIOD_START brings the screen's duty to its output, and BLINK_PHASE_CHANGE turns the phase of a running blink
timer; neither changes anything else (sections 2.5 and 5.4). That the event of a stopped blink timer changes nothing is the
model's choice (Log 3). -/
def Obligations.PwmAndBlinkEventsActAlone : Prop :=
  ∀ s : State,
    (∀ i, ∃ t, exec (.pwmPeriodStart i) s = .next t ∧ (t.screens.get i).dutyOut = (s.screens.get i).duty ∧
      t = { s with screens := s.screens.set i { s.screens.get i with dutyOut := (s.screens.get i).duty } } ∧
      ∀ j, j ≠ i → t.screens.get j = s.screens.get j) ∧
    exec .blinkPhaseChange s = .next { s with blinkOn := s.blinkOn ^^ s.blinkRunning }

/-! ## Composition (Chapters 3 and 5) -/

/-- A drawn layer is blended over the pixel beneath by the combined alpha (opacity × α + 127) div 255 and, channel by
channel, (src × a + dst × (255 − a) + 127) div 255, never leaving 0 to 255; at full opacity and alpha the result is the
source, at 0 of either the destination. A FILL layer blends its fill colour at each pixel of its rectangle, whatever
memory holds. The layers go from the back to the front over the background. A takeover refresh sends the takeover
picture: it is the camera blank colour outside CW × CH pixels at the camera origin, and inside what a CAMERA layer shows
there, or where the camera's fetch failed the blank colour, with the guide lines and marker over it in LIVE then too;
the takeover cell layer is blended over that where it is drawn. Layer pixel (i, j) lies at column x + i and row y + j.
The source value of a PICTURE layer is the pixel at A + j × S + i × b, expanded by Table 3-1; of a FILM layer the
frame's pixel inside the frame and the fill colour elsewhere and without a frame; of a CAMERA layer the fill colour
outside CW × CH, and inside it the camera picture at alpha 255: in LIVE the SHOWN buffer's pixel, mirrored as set, by
the conversion of R51, in WAIT the blank colour, in LOST the fallback picture, with the guide lines and then the marker
over it in LIVE alone, each at the pixels whose distance from a segment between its closed ends is at most half its
width, measured exactly; of a CELLS layer nothing beyond the map's columns, and else the entry of the cell's own palette
for index 0 where the cell blinks and the phase latched is OFF, and elsewhere for the glyph's index, inverted where
exactly one of the INVERT flag and the focus holds, a glyph index beyond the sheet drawing glyph 0 (sections 3.2 to 3.4,
3.7, 5.2 to 5.4, 5.6, 7.5, 8.4 and 8.6). That a CAMERA layer whose fetch failed is a fill without guide lines is the
model's choice (Log 44). -/
def Obligations.LayersAreBlendedInOrder : Prop :=
  (∀ (o : Nat) (src : Argb) (dst : Rgb),
    let a := (o * src.a + 127) / 255
    blend o src dst = ⟨(src.r * a + dst.r * (255 - a) + 127) / 255, (src.g * a + dst.g * (255 - a) + 127) / 255,
      (src.b * a + dst.b * (255 - a) + 127) / 255⟩ ∧
    (o ≤ 255 → src.a ≤ 255 → a ≤ 255 ∧
      (src.r ≤ 255 → dst.r ≤ 255 → (blend o src dst).r ≤ 255) ∧ (src.g ≤ 255 → dst.g ≤ 255 → (blend o src dst).g ≤ 255) ∧
      (src.b ≤ 255 → dst.b ≤ 255 → (blend o src dst).b ≤ 255)) ∧
    (o = 255 → src.a = 255 → blend o src dst = ⟨src.r, src.g, src.b⟩) ∧
    (o = 0 ∨ src.a = 0 → blend o src dst = dst) ∧
    (o = 200 → src.a = 128 → a = 100 ∧ (src.r = 255 → dst.r = 0 → (blend o src dst).r = 100))) ∧
  (∀ (s : State) (r : Refresh) (l : SetLayer) (col row : Nat) (dst : Rgb), l.shed = false →
    (l.layer.restricted && r.cover) = false →
    (layerPixel l.layer.x l.layer.y l.layer.w l.layer.h col row = none → drawLayer s r col row dst l = dst) ∧
    (∀ p, layerPixel l.layer.x l.layer.y l.layer.w l.layer.h col row = some p →
      (l.layer.kind = .fill → ∀ m, drawLayer { s with mem := m } r col row dst l = blend l.layer.opacity l.layer.fill dst) ∧
      (.layer l.idx ∈ r.failed → drawLayer s r col row dst l = blend l.layer.opacity l.layer.fill dst) ∧
      (.layer l.idx ∉ r.failed → ∀ v, sourcePixel s r.set l p.1 p.2 = some v →
        drawLayer s r col row dst l = blend l.layer.opacity v dst))) ∧
  (∀ (s : State) (r : Refresh) (col row : Nat),
    (r.set.takeover = true → composePixel s r col row = takeoverPixel s r col row) ∧
    (r.set.takeover = false → r.set.mode = .normal → r.set.layers = [] → composePixel s r col row = r.set.background)) ∧
  (∀ (s : State) (r : Refresh) (l : Layer) (v : Argb) (k : Bool) (col row : Nat),
    takeoverCell s r col row = some (l, v, k) →
    takeoverPixel s r col row =
      blend l.opacity v (takeoverPixel { s with settings := { s.settings with cellLayer := none } } r col row)) ∧
  (∀ (s : State) (r : Refresh) (col row : Nat),
    let cam := s.settings.camera
    let bare := takeoverPixel { s with settings := { s.settings with cellLayer := none } } r col row
    let at' := layerPixel cam.originX cam.originY cam.width cam.height col row
    (at' = none → bare = cam.blank) ∧
    (∀ i j, at' = some (i, j) →
      (.takeoverCamera ∈ r.failed → bare = paintGuides s r.set.view r.set.guide i j cam.blank) ∧
      (.takeoverCamera ∉ r.failed → ∀ l : SetLayer, l.layer.kind = .camera →
        sourcePixel s r.set l i j = some ⟨255, bare.r, bare.g, bare.b⟩)) ∧
    (takeoverCell s r col row = none → takeoverPixel s r col row = bare) ∧
    (∀ l v k, takeoverCell s r col row = some (l, v, k) ↔ s.settings.cellLayer = some l ∧ .takeoverCells ∉ r.failed ∧
      ∃ i j, layerPixel l.x l.y l.w l.h col row = some (i, j) ∧
        cellPixel s.mem l r.set.cellScroll r.set.blinkOn i j = some (v, k))) ∧
  (∀ (w : Nat) (a b p : Pt), onSegment w a b p = true ↔ ∃ k n : Int, 0 ≤ k ∧ k ≤ n ∧ 0 < n ∧
    4 * ((n * (a.x - p.x) + k * (b.x - a.x)) ^ 2 + (n * (a.y - p.y) + k * (b.y - a.y)) ^ 2) ≤ (n * w) ^ 2) ∧
  (∀ (s : State) (r : Refresh) (col row : Nat) (back : List SetLayer) (front : SetLayer),
    composePixel s { r with set := { r.set with takeover := false, mode := .normal, layers := back ++ [front] } } col row =
      drawLayer s { r with set := { r.set with takeover := false, mode := .normal, layers := back ++ [front] } } col row
        (back.foldl (drawLayer s { r with set := { r.set with takeover := false, mode := .normal, layers := back ++ [front] } }
          col row) r.set.background) front) ∧
  (∀ (x y : Int) (w h col row i j : Nat), layerPixel x y w h col row = some (i, j) ↔
    i < w ∧ j < h ∧ (col : Int) = x + i ∧ (row : Int) = y + j) ∧
  (∀ (s : State) (set : CompSet) (l : SetLayer) (i j : Nat),
    let y := l.layer
    let byte := fun a : Nat => (Mem.get s.mem a).toNat
    let wide := fun v : Nat => (⟨v / 2048 % 32 * 8 + v / 2048 % 32 / 4, v / 32 % 64 * 4 + v / 32 % 64 / 16,
      v % 32 * 8 + v % 32 / 4⟩ : Rgb)
    let pixel := fun (f : PixFormat) (a : Nat) => match f with
      | .rgb565 => let c := wide (byte a + 256 * byte (a + 1))
        (⟨255, c.r, c.g, c.b⟩ : Argb)
      | .xrgb8888 => ⟨255, byte (a + 2), byte (a + 1), byte a⟩
      | .argb8888 => ⟨byte (a + 3), byte (a + 2), byte (a + 1), byte a⟩
    (y.kind = .picture → ∀ f, y.format = some f →
      sourcePixel s set l i j = some (pixel f (y.surface + j * y.stride + i * f.bytes))) ∧
    (y.kind = .film →
      (∀ fr f, l.frame = some fr → fr.format = some f → i < fr.width → j < fr.height →
        sourcePixel s set l i j = some (pixel f (fr.surface + j * fr.stride + i * f.bytes))) ∧
      (l.frame = none → sourcePixel s set l i j = some y.fill) ∧
      (∀ fr, l.frame = some fr → fr.width ≤ i ∨ fr.height ≤ j → sourcePixel s set l i j = some y.fill)) ∧
    (y.kind = .cells →
      let c := y.cells
      let m := (j + l.scroll) / 16 % c.rows
      let cell := Mem.readLE s.mem (c.map + (m * c.cols + i / 16) * 4) 4
      let glyph := if y.glyphs ≤ cell % 1024 then 0 else cell % 1024
      let pair := byte (c.sheet + glyph * 128 + (j + l.scroll) % 16 * 8 + i % 16 / 2)
      let index := if i % 2 = 0 then pair % 16 else pair / 16
      let focus : Bool := y.focusOn && decide (c.col0 ≤ i / 16 ∧ i / 16 ≤ c.col1 ∧ c.row0 ≤ m ∧ m ≤ c.row1)
      let entry := fun n : Nat => some (pixel .argb8888 (c.palette + cell / 1024 % 16 * 64 + n * 4))
      let inverted : Bool := decide (cell / 16384 % 2 = 1)
      let blanked : Prop := cell / 32768 % 2 = 1 ∧ y.blinkOn = true ∧ set.blinkOn = false
      sourcePixel s set l i j = (cellPixel s.mem y l.scroll set.blinkOn i j).map (·.1) ∧
      (c.cols ≤ i / 16 → sourcePixel s set l i j = none) ∧
      (i / 16 < c.cols → blanked → sourcePixel s set l i j = entry 0) ∧
      (i / 16 < c.cols → ¬ blanked →
        (inverted = focus → sourcePixel s set l i j = entry index) ∧
        (inverted ≠ focus → sourcePixel s set l i j = entry (15 - index)))) ∧
    (y.kind = .camera →
      let cam := s.settings.camera
      let opaque' := fun c : Rgb => some (⟨255, c.r, c.g, c.b⟩ : Argb)
      let clamp := fun v : Int => (max 0 (min 255 ((v + 128) / 256))).toNat
      let converted := fun a x : Nat =>
        let pair := a + j * cam.width * 2 + x / 2 * 4
        let C : Int := byte (pair + x % 2 * 2) - 16
        let D : Int := byte (pair + 1) - 128
        let E : Int := byte (pair + 3) - 128
        (⟨clamp (298 * C + 409 * E), clamp (298 * C - 100 * D - 208 * E), clamp (298 * C + 516 * D)⟩ : Rgb)
      (cam.width ≤ i ∨ cam.height ≤ j → sourcePixel s set l i j = some y.fill) ∧
      (i < cam.width → j < cam.height →
        (set.view = some .wait → sourcePixel s set l i j = opaque' cam.blank) ∧
        (set.view = some .lost → sourcePixel s set l i j = opaque' (wide
          (byte (cam.fallback + j * cam.width * 2 + i * 2) + 256 * byte (cam.fallback + j * cam.width * 2 + i * 2 + 1)))) ∧
        (∀ n, set.view = some .live → set.shown = some n →
          sourcePixel s set l i j = opaque' (paintGuides s (some .live) set.guide i j
            (converted (cam.buffers.get n) (if cam.mirror then cam.width - 1 - i else i))))))) ∧
  (∀ (s : State) (v : Option View) (g : GuideRec) (i j : Nat) (under : Rgb),
    (v ≠ some .live ∨ s.guide.state ≠ .inUse → paintGuides s v g i j under = under) ∧
    (∀ table, s.guide.state = .inUse → s.guide.table = some table →
      let st := s.settings.guide
      let p : Pt := ⟨i, j⟩
      let segments := fun line : List Pt => (line.zip line.tail).zip table.colours
      let lines := segments table.statLeft ++ segments table.statRight ++
        (if g.dynamicShown then segments g.dynLeft ++ segments g.dynRight else [])
      let lined := lines.foldl (fun c x => if onSegment st.lineWidth x.1.1 x.1.2 p then guideColour st x.2 else c) under
      let marked := g.markerShown = true ∧ onSegment (2 * st.lineWidth) g.markerLeft g.markerRight p = true
      (¬ marked → paintGuides s (some .live) g i j under = lined) ∧
      (marked → g.zone = .caution → paintGuides s (some .live) g i j under = st.caution) ∧
      (marked → g.zone = .stop → paintGuides s (some .live) g i j under = st.stop)))

/-- A restricted layer under the cover mark is drawn as its opaque fill colour alone, whatever memory, streams and camera
hold, and reads nothing; a shed layer draws nothing. An INVERT refresh sends each NORMAL pixel with every channel replaced
by 255 less it, a BLANK one the background colour at every pixel, and a takeover refresh never depends on the mode. A
refresh in DARK, or of a screen without a plan, that does not show the takeover picture begins with its panel IDLE, a demand
of 0 and a duty of 0; a refresh whose panel is IDLE sends nothing, neither while the clock runs nor at its end (sections
2.4, 3.1, 3.2, 3.5 and 3.6). -/
def Obligations.CoversAndInversionHideAsStated : Prop :=
  (∀ (s s' : State) (r : Refresh) (l : SetLayer) (col row : Nat) (dst : Rgb), l.shed = false →
    l.layer.restricted = true → r.cover = true →
    drawLayer s r col row dst l = drawLayer s' r col row dst l ∧
    drawLayer s r col row dst l =
      (if layerPixel l.layer.x l.layer.y l.layer.w l.layer.h col row = none then dst
      else ⟨l.layer.fill.r, l.layer.fill.g, l.layer.fill.b⟩)) ∧
  (∀ (s : State) (r : Refresh) (l : SetLayer) (col row : Nat) (dst : Rgb), l.shed = true →
    drawLayer s r col row dst l = dst) ∧
  (∀ (s : State) (r : Refresh) (col row : Nat), r.set.takeover = false →
    let with' := fun m => composePixel s { r with set := { r.set with mode := m } } col row
    with' .invert = ⟨255 - (with' .normal).r, 255 - (with' .normal).g, 255 - (with' .normal).b⟩ ∧
    with' .blank = r.set.background) ∧
  (∀ (s : State) (i : ScreenId) (r : Refresh), (s.screens.get i).refresh = some r → r.set.panel = .idle →
    s.idle.screens.get i = s.screens.get i ∧ s.finishRefresh i = s) ∧
  (∀ (s t : State) (i : ScreenId) (e : LinkErrs) (r : Refresh), s.runState = .run → (s.screens.get i).genOn = true →
    exec (.frameStart i e) s = .next t → (t.screens.get i).refresh = some r →
    (r.set.panel = .idle ↔ r.set.takeover = false ∧ r.set.mode = .dark) ∧
    ((t.screens.get i).plan = none → r.set.mode = .dark) ∧
    (r.set.panel = .idle → (t.screens.get i).panel = .idle ∧ (t.screens.get i).adm.load = 0 ∧
      (t.screens.get i).duty = 0 ∧ t.idle.screens.get i = t.screens.get i)) ∧
  (∀ (s : State) (r : Refresh) (m : Mode) (col row : Nat), r.set.takeover = true →
    composePixel s { r with set := { r.set with mode := m } } col row = composePixel s r col row)

/-- R89. A cell of the map lies in the focus of its layer when focus is enabled and its column and row lie in the focus
rectangle, whichever layer row shows it. In a cell that is not blanked the glyph's colour index i is drawn as 15 − i when
exactly one of the INVERT flag and the focus holds, and the index drawn selects an entry of the cell's own palette. The
colour of the pixel is inverted apart, by the pipe, in a plan in INVERT mode. A blanked cell, one that blinks while the
phase latched is OFF, shows entry 0 of its palette whether or not it is inverted or in focus, whatever its glyph (section
5.4), and beyond the map's columns nothing is drawn (section 5.3). -/
def Obligations.FocusAndInvertFlagChooseTheIndex : Prop :=
  ∀ (mem : Mem) (l : Layer) (scroll i j : Nat) (phaseOn : Bool),
    let c := i / 16
    let m := (j + scroll) / 16 % l.cells.rows
    let cell := readCell mem l c m
    let focus : Prop := l.focusOn = true ∧ l.cells.col0 ≤ c ∧ c ≤ l.cells.col1 ∧ l.cells.row0 ≤ m ∧ m ≤ l.cells.row1
    let g := glyphIndex mem l (if l.glyphs ≤ cell.glyph then 0 else cell.glyph) ((j + scroll) % 16) (i % 16)
    let blanked : Prop := cell.blink = true ∧ l.blinkOn = true ∧ phaseOn = false
    (l.cells.cols ≤ c → cellPixel mem l scroll phaseOn i j = none) ∧
    (c < l.cells.cols → blanked →
      (cellPixel mem l scroll phaseOn i j).map (·.1) = some (paletteEntry mem l cell.palette 0)) ∧
    (c < l.cells.cols → ¬ blanked →
      (inFocus l c m = true ↔ focus) ∧
      (cell.invert = true ∧ ¬ focus ∨ cell.invert = false ∧ focus →
        (cellPixel mem l scroll phaseOn i j).map (·.1) = some (paletteEntry mem l cell.palette (15 - g))) ∧
      (cell.invert = true ∧ focus ∨ cell.invert = false ∧ ¬ focus →
        (cellPixel mem l scroll phaseOn i j).map (·.1) = some (paletteEntry mem l cell.palette g))) ∧
    (∀ (s : State) (r : Refresh) (col row : Nat), r.set.takeover = false → r.set.mode = .invert →
      composePixel s r col row = Rgb.invert (r.set.layers.foldl (drawLayer s r col row) r.set.background))

/-! ## Chains and film streams (Chapters 1 and 4) -/

/-- The walk (section 1.5): it follows at most n links from the first; each entry handed is the one the link before it
names, lies on a multiple of 16 with its first 32 bytes in the window, is not held already, was read without error and
bears the chain's kind tag; it ends at an end-of-chain link, after n links, or at the entry whose check failed, which is
then named, also when the check is of a later part of it (the model's choice, Log 33): a layer record of a plan reached
over records with the more flag, or a frame's bytes 32 to 47, outside the window, cause ADDRESS, or not read, cause
READ_ERROR, which gives it FAULT. The walk of a polling event follows at most four links, from the cursor's link read
afresh or without a cursor from the root's; no walk is made on a FAULTED chain or where that link cannot be read. A walk
that ends at a failed check leaves the chain FAULTED with the cause and that entry's address, counted, with CHAIN_FAULT
raised; where the header can be written, FAULT is written into the entry, its report word first, with its family's
notice, and each of the two writes that fails is counted and leaves its word free (the model's reading, Logs 6 and 18:
the statement holds for every value). The serial check reads the 4 bytes at the root + 8 (sections 1.3 and 1.7): where
they cannot be read the root's address is recorded and the chain's state stands, the last seen serial changes nothing,
and another one abandons the chain: it is EMPTY without a cursor, the new serial is the last seen one, and the old
cursor's entry, its cursor hold ended and its mark clear, has its final state or is still held. That an entry is held
already when it was before the walk is the model's reading (Log 13), and so is the order of the causes ADDRESS, LOOP,
READ_ERROR and KIND (Log 26). -/
def Obligations.WalkHandsOnlyCheckedEntries : Prop :=
  (∀ (β : Type) (rd : Reader β) (s : State) (c : ChainId) (e : LinkErrs) (n : Nat) (first : Option Nat),
    let w := walk rd s c e n first
    let next := fun k : Nat => if k = 0 then first else (w.1[k - 1]?).bind (·.link)
    w.1.length ≤ n ∧
    (∀ k h, w.1[k]? = some h → next k = some h.addr ∧ h.addr % 16 = 0 ∧ s.settings.inWindow h.addr 32 = true ∧
      s.hold? c h.addr = none ∧ touches e.reads h.addr 32 = false ∧ Mem.readLE s.mem (h.addr + 16) 4 = kindTag c ∧
      rd s e h.addr = .ok h.body ∧ h.link = linkOf (Mem.readLE s.mem (h.addr + 8) 8)) ∧
    (match w.2 with
      | .endOfChain => w.1.length < n ∧ next w.1.length = none
      | .limit => w.1.length = n
      | .fault a f => w.1.length < n ∧ next w.1.length = some a ∧
          (a % 16 ≠ 0 → f.cause = .alignment ∧ f.write = false) ∧
          (a % 16 = 0 → s.settings.inWindow a 32 = false → f.cause = .address ∧ f.write = false) ∧
          (a % 16 = 0 → s.settings.inWindow a 32 = true → s.hold? c a ≠ none → f.cause = .loop ∧ f.write = false) ∧
          (a % 16 = 0 → s.settings.inWindow a 32 = true → s.hold? c a = none →
            (touches e.reads a 32 = true → f.cause = .readError ∧ f.write = true) ∧
            (touches e.reads a 32 = false → Mem.readLE s.mem (a + 16) 4 ≠ kindTag c → f.cause = .kind ∧ f.write = true) ∧
            (touches e.reads a 32 = false → Mem.readLE s.mem (a + 16) 4 = kindTag c → rd s e a = .error f)))) ∧
  (∀ (s : State) (e : LinkErrs) (a : Nat) (f : EntryFault),
    let part := fun x n : Nat =>
      (s.settings.inWindow x n = false ∧ f.cause = .address ∨
        s.settings.inWindow x n = true ∧ touches e.reads x n = true ∧ f.cause = .readError) ∧ f.write = true
    (readPlan s e a = .error f ↔ ∃ k, k < 6 ∧ part (a + 32 + 48 * k) 48 ∧ ∀ j, j < k →
      s.settings.inWindow (a + 32 + 48 * j) 48 = true ∧ touches e.reads (a + 32 + 48 * j) 48 = false ∧
        (readLayer s.mem (a + 32 + 48 * j)).more = true) ∧
    (readFrameEntry s e a = .error f ↔ part (a + 32) 16) ∧ readChimeEntry s e a ≠ .error f) ∧
  (∀ (β : Type) (rd : Reader β) (s : State) (c : ChainId) (e : LinkErrs),
    let ch := s.chain c
    let p := s.pollWalk rd c e
    let src := match ch.cursor with | some a => a + 8 | none => s.rootAddr c
    let w := walk rd s c e 4 (linkOf (Mem.readLE s.mem src 8))
    (ch.state = .faulted → p = ([], none, s)) ∧
    (ch.state ≠ .faulted → touches e.reads src 8 = true → p.1 = [] ∧ p.2.1 = none ∧
      p.2.2 = (match ch.cursor with | some a => s.faultChain c .linkRead a | none => s.rootReadError c)) ∧
    (ch.state ≠ .faulted → touches e.reads src 8 = false → p.1 = w.1 ∧ p.2.1 = some w.2 ∧
      (∀ a f, w.2 = .fault a f →
        let t := p.2.2
        let badReport : Bool := f.write && touches e.writes (a + 4) 4
        let badStatus : Bool := f.write && touches e.writes a 4
        let final : Bool := f.write && !badStatus
        let bumped := fun n : Nat => min (n + 1) 65535
        let once := if badReport then bumped ch.statusWriteErrors else ch.statusWriteErrors
        t = { s with mem := t.mem, chains := t.chains, freeIx := t.freeIx, regs := { s.regs with notice := t.regs.notice } } ∧
        t.chain c = { ch with state := .faulted, cause := f.cause, faultAddr := a, faults := bumped ch.faults,
                              statusWriteErrors := if badStatus then bumped once else once } ∧
        (∀ d, d ≠ c → t.chain d = s.chain d) ∧
        (∀ k, t.regs.notice.getLsbD k = (s.regs.notice.getLsbD k || decide (k = 7) ||
          (final && decide (k = (family c).bit)))) ∧
        (f.write = false → t.mem = s.mem ∧ t.freeIx = s.freeIx) ∧
        (f.write = true → a + 8 ≤ 2 ^ 64 →
          Mem.readLE t.mem a 4 =
            (if badStatus then (Config.lostWord (if badReport then s.freeIx + 1 else s.freeIx)).toNat else 13) ∧
          Mem.readLE t.mem (a + 4) 4 = (if badReport then (Config.lostWord s.freeIx).toNat else 0)) ∧
        (∀ x, x < a ∨ a + 8 ≤ x → Mem.get t.mem x = Mem.get s.mem x)) ∧
      ((∀ a f, w.2 ≠ .fault a f) → p.2.2 = s))) ∧
  (∀ (s : State) (c : ChainId) (e : LinkErrs),
    let ch := s.chain c
    let root := s.rootAddr c
    let q := s.checkSerial c e
    let t := q.2
    let serial := BitVec.ofNat 32 (Mem.readLE s.mem (root + 8) 4)
    (touches e.reads (root + 8) 4 = true → q.1 = .failed ∧
      t = { s with chains := t.chains, regs := { s.regs with notice := s.regs.notice ||| 0x80 } } ∧
      t.chain c = { ch with cause := .rootRead, faultAddr := root, rootReadErrors := min (ch.rootReadErrors + 1) 65535 } ∧
      ∀ d, d ≠ c → t.chain d = s.chain d) ∧
    (touches e.reads (root + 8) 4 = false → serial = ch.lastSerial → q = (.same, s)) ∧
    (touches e.reads (root + 8) 4 = false → serial ≠ ch.lastSerial → q.1 = .changed ∧
      t = { s with mem := t.mem, chains := t.chains, holds := t.holds, regs := { s.regs with notice := t.regs.notice } } ∧
      t.chain c = { ch with state := .empty, cursor := none, lastSerial := serial } ∧
      (∀ d, d ≠ c → t.chain d = s.chain d) ∧
      (∀ a h, ch.cursor = some a → s.hold? c a = some h →
        let k := { h with cursor := false }
        (k.isFree = true → t.hold? c a = none ∧ t.regs.notice.getLsbD (family c).bit = true) ∧
        (k.isFree = false → t.hold? c a = some { k with written := some k.heldWord }) ∧
        (a + 8 ≤ 2 ^ 64 → (h.written = some k.heldWord → Mem.readLE s.mem a 4 = k.heldWord.toNat) →
          Mem.readLE t.mem a 4 = (if k.isFree then k.finalWord else k.heldWord).toNat)) ∧
      (∀ d b, ¬ (d = c ∧ ch.cursor = some b) → t.hold? d b = s.hold? d b) ∧
      (∀ x, (∀ a, ch.cursor = some a → x < a ∨ a + 8 ≤ x) → Mem.get t.mem x = Mem.get s.mem x)))

/-- An entry's words follow its holds (sections 1.2 and 1.6): when none remains the entry retires, its report word and
its final state written, its mark clear, its record discarded and its family's notice raised; while one remains its visible
state stands in its status word, its report word untouched. No other byte changes. -/
def Obligations.EntryWordsFollowTheirHolds : Prop :=
  ∀ (s : State) (c : ChainId) (a : Nat) (h : Hold), s.hold? c a = some h → a % 16 = 0 → a + 16 ≤ 2 ^ 64 →
    (h.written = some h.heldWord → h.isFree = false → Mem.readLE s.mem a 4 = h.heldWord.toNat) →
    let t := s.settle c a
    (h.isFree = true →
      Mem.readLE t.mem a 4 = (statusWord (match h.verdict with | some v => v | none => if h.used then .done else .released)
        false h.shed h.invalid).toNat ∧
      Mem.readLE t.mem (a + 4) 4 = (reportWord h.count h.late).toNat ∧
      t.hold? c a = none ∧ t.regs.notice.getLsbD (family c).bit = true) ∧
    (h.isFree = false →
      Mem.readLE t.mem a 4 = (statusWord (if h.client && h.waiting then .waiting else .taken) h.cursor h.shed h.invalid).toNat ∧
      Mem.readLE t.mem (a + 4) 4 = Mem.readLE s.mem (a + 4) 4 ∧
      t.hold? c a = some { h with written := some h.heldWord } ∧ t.regs = s.regs) ∧
    (∀ x, x < a ∨ a + 8 ≤ x → Mem.get t.mem x = Mem.get s.mem x) ∧
    (∀ d b, ¬ (d = c ∧ b = a) → t.hold? d b = s.hold? d b)

/-- Fine insertion (section 4.4): whatever the fine counter, sixteen advances at one period add exactly that period to
the media clock, each of them the sixteenth part rounded down or one tick more, and the fine counter comes round. -/
def Obligations.SixteenAdvancesAddOnePeriod : Prop :=
  ∀ (y : Stream) (p : Nat), y.fine < 16 →
    (Nat.repeat (fun x => Stream.fineInsert x p) 16 y).clock = y.clock + BitVec.ofNat 32 p ∧
    (Nat.repeat (fun x => Stream.fineInsert x p) 16 y).fine = y.fine ∧
    ((y.fineInsert p).clock = y.clock + BitVec.ofNat 32 (p / 16) ∨
      (y.fineInsert p).clock = y.clock + BitVec.ofNat 32 (p / 16 + 1))

/-- Frame selection of a PLAYING stream (sections 4.2 and 4.5): the frames consumed are the first ones handed; one is
REJECTED exactly when it fails a condition of section 4.2 (format, size, stride, window, and unless it carries RESTART a pts
later than its predecessor's, the nearest frame before it that was judged valid); a candidate is due, its pts is later than
that of the candidate before it and than the last valid pts, and a RESTART ends the selection. What stops the selection is a
RESTART taken or a valid frame not yet due. At a pacing refresh a PRIMING stream consumes the frames up to the first valid
one, which it takes, a PLAYING one those selected, any other none (sections 4.3 and 4.5), and the cursor moves to the last
of them. A frame consumed and not taken is REJECTED or SKIPPED, held on only where it bears the cursor, else its final state
is written with a report of 0. The last valid one is taken: it has its client hold, counts as used, with its lateness at the
end of the refresh, 0 where it set the clock, and a first refresh shown. The frame shown before loses its client hold then,
at STOP and at a changed serial, and retires, or is held on by what else holds it; where it stays shown its count of
refreshes shown grows by one (sections 1.6 and 4.2). The premises on cursors, placed entries and the window are invariants
stated below. That a frame met twice in one walk has the record of the later meeting is the model's reading (Log 13), and
the lateness 0 at a difference of -2^31 its choice (Log 47). -/
def Obligations.SelectionConsumesDueFramesInOrder : Prop :=
  (∀ (st : Settings) (m : Word) (hs : List (Handed Frame)) (pred : Option Word),
    let ds := select st m hs pred
    let shown := (ds.filter (fun d => decide (d.2 = .candidate))).map (fun d => d.1.body.pts)
    let before := fun l : List Dealt => match (l.filter (fun d => decide (d.2 ≠ .reject))).getLast? with
      | some d => some d.1.body.pts
      | none => pred
    let fits := fun (f : Frame) (p : Option Word) =>
      16 ≤ f.width ∧ f.width ≤ 1920 ∧ 16 ≤ f.height ∧ f.height ≤ 1200 ∧
      (∃ x, f.format = some x ∧ f.width * x.bytes ≤ f.stride ∧ f.stride % 16 = 0 ∧ st.windowBase ≤ f.surface ∧
        f.surface + (f.stride * (f.height - 1) + f.width * x.bytes) ≤ st.windowBase + st.windowSize) ∧
      (f.restart = true ∨ ∀ q, p = some q → 0 < sdiff f.pts q)
    (∀ f q, f.valid st q = true ↔ fits f q) ∧ ds.map (·.1) = hs.take ds.length ∧
    (∀ l1 d l2, ds = l1 ++ d :: l2 → (d.2 = .reject ↔ ¬ fits d.1.body (before l1))) ∧
    (∀ d ∈ ds, d.2 = .candidate → d.1.body.restart = false ∧ sdiff d.1.body.pts m ≤ 0) ∧
    (∀ l1 d l2, ds = l1 ++ d :: l2 → d.2 = .restart → d.1.body.restart = true ∧ l2 = []) ∧
    (∀ l1 a b l2, shown = l1 ++ a :: b :: l2 → 0 < sdiff b a) ∧
    (∀ p b l2, pred = some p → shown = b :: l2 → 0 < sdiff b p) ∧
    (∀ h, hs[ds.length]? = some h → (∃ d ∈ ds, d.2 = .restart) ∨
      (fits h.body (before ds) ∧ h.body.restart = false ∧ 0 < sdiff h.body.pts m))) ∧
  (∀ (s : State) (x : StreamId) (t p : Nat) (e : LinkErrs),
    let r := s.rootAddr (.film x)
    let c := readControls s.mem r
    let was := s.streams.get x
    let u := s.pace x t p e
    let now := u.streams.get x
    let req := c.req.getD was.req
    let q := (s.filmBegun x t).filmSerial x e
    let w := (q.2.filmPoll x q.1 e).1
    let y := q.2.streams.get x
    let bal := if c.serial = was.nudgeSerial then y.balance
      else clampInt (-18000) 18000 (y.balance + clampInt (-9000) 9000 c.amount)
    let clock := (y.fineInsert p).clock
    let age := match y.shown with | some f => sdiff clock f.pts | none => 0
    let rate : Int := s.settings.nudgeRate
    let step : Int := if 0 < bal then min bal rate else if bal < 0 then -(min (min (-bal) rate) (max 0 age)) else 0
    let bad := w.takeWhile (fun h => !h.body.valid s.settings none)
    let ds : List Dealt :=
      if req = .stop then []
      else if y.state = .priming then
        bad.map (fun h => (h, .reject)) ++ ((w.drop bad.length).take 1).map (fun h => (h, .restart))
      else if (y.state = .playing ∨ y.state = .paused) ∧ req = .run then
        select s.settings (clock + BitVec.ofInt 32 step) w y.lastPts
      else []
    let taken := (ds.filter (fun d => decide (d.2 ≠ .reject))).getLast?.map (fun d => d.1.addr)
    let last := ds.getLast?.map (fun d => d.1.addr)
    let placed : Prop := s.HoldsPlaced ∧ s.settings.windowBase + s.settings.windowSize ≤ 2 ^ 64
    let word := fun a : Nat => Mem.readLE u.mem a 4
    s.CursorsHeld → touches e.reads (r + 12) 12 = false →
      (req ≠ .stop → (u.chain (.film x)).cursor = (match last with
        | some a => some a
        | none => (q.2.chain (.film x)).cursor)) ∧
      (∀ l1 d l2, ds = l1 ++ d :: l2 → (∀ b ∈ l2, b.1.addr ≠ d.1.addr) →
        let a := d.1.addr
        let shows : Prop := d.2 ≠ .reject ∧ taken = some a
        let verdict : EntryState := if d.2 = .reject then .rejected else .skipped
        (¬ shows → last ≠ some a → u.hold? (.film x) a = none ∧
          (placed → word a = (statusWord verdict false 0 0).toNat ∧ word (a + 4) = 0)) ∧
        (¬ shows → last = some a → ∃ k, u.hold? (.film x) a = some k ∧ k.cursor = true ∧ k.client = false ∧ k.used = false ∧
          k.verdict = some verdict ∧ k.late = 0 ∧ (now.shown.map (·.addr) ≠ some a → k.count = 0) ∧
          (placed → word a = (statusWord .taken true 0 0).toNat)) ∧
        (shows → ∃ k, u.hold? (.film x) a = some k ∧ (k.cursor = true ↔ last = some a) ∧ k.client = true ∧ k.used = true ∧
          k.verdict = none ∧ k.count = 1 ∧
          k.late = (if d.2 = .candidate then min (sdiff now.clock d.1.body.pts).toNat 65535 else 0) ∧
          (placed → word a = (statusWord .taken k.cursor 0 0).toNat))) ∧
      (∀ f h, was.shown = some f → was.state ≠ .idle → s.hold? (.film x) f.addr = some h → h.client = true →
        let gone : Prop := req = .stop ∨ q.1 = .changed ∨ taken ≠ none
        let left := { h with
          client := false, waiting := false
          cursor := h.cursor && decide ((s.chain (.film x)).cursor ≠ some f.addr) }
        (¬ gone → ∃ k, u.hold? (.film x) f.addr = some k ∧ k.client = true ∧ k.used = h.used ∧ k.verdict = h.verdict ∧
          k.late = h.late ∧ k.count = min (h.count + 1) 65535) ∧
        (gone → (req ≠ .stop → q.1 = .changed → f.addr ∉ s.paceReached x t e) →
          (left.isFree = true → u.hold? (.film x) f.addr = none ∧
            (placed → word (f.addr + 4) = (reportWord h.count h.late).toNat ∧ word f.addr = (statusWord
              (match h.verdict with | some v => v | none => if h.used then .done else .released) false h.shed
              h.invalid).toNat)) ∧
          (left.isFree = false → u.hold? (.film x) f.addr = some { left with written := some left.heldWord }))))

/-- A pacing refresh of a stream (sections 4.1 and 4.3 to 4.6). A failed read of the control fields ends it at once; that
none of the fields then goes into use, and that the shown frame's count does not grow, are the model's choices (Logs 35 and
46). Else each legal field goes into use and each illegal one is counted. STOP makes the stream IDLE with its chain EMPTY.
RUN and PAUSE start an IDLE stream PRIMING, and so does a changed serial. A changed nudge serial adds the amount, clamped,
to the balance, saturated. PRIMING takes the first valid frame and goes PLAYING or PAUSED; PAUSED and ENDED hold clock and
frame; an entry reached returns STARVED to PLAYING; PLAYING adds the period and the balance's step to the clock, takes the
last candidate or the RESTART, and goes ENDED or STARVED by the shown frame's age. A FAULTED chain takes a stream with a
shown frame to FAULTED; that a chain found FAULTED does so before any advance, and that the stream's work goes on without a
walk where the serial cannot be read, are the model's readings (Logs 19, 20); that a negative balance steps by 0 where the
clock stands before the shown pts, and that an ENDED stream goes FAULTED with its chain, are its choices (Logs 42 and 51),
and that a walk of four entries whose last link ends the chain is neither dry nor late is its reading (Log 32). Nothing
outside the stream, its chain and the entries reached changes. -/
def Obligations.PacingRefreshesMoveTheStream : Prop :=
  ∀ (s : State) (x : StreamId) (t p : Nat) (e : LinkErrs),
    let r := s.rootAddr (.film x)
    let c := readControls s.mem r
    let was := s.streams.get x
    let u := s.pace x t p e
    let now := u.streams.get x
    let req := c.req.getD was.req
    let legal : Bool := decide (1000 ≤ c.interval ∧ c.interval ≤ 9000)
    let bad := [c.req.isNone, c.pacing.isNone, !legal,
      decide (c.serial ≠ was.nudgeSerial ∧ (c.amount < -9000 ∨ 9000 < c.amount))].countP id
    u = { s with mem := u.mem, chains := u.chains, holds := u.holds, streams := u.streams, freeIx := u.freeIx,
                 regs := { s.regs with notice := u.regs.notice } } ∧
    (∀ y, y ≠ x → u.streams.get y = s.streams.get y) ∧ (∀ d, d ≠ .film x → u.chain d = s.chain d) ∧
    (∀ a, (∀ h ∈ s.holds, ¬ (h.addr ≤ a ∧ a < h.addr + 8)) → (∀ n ∈ s.paceReached x t e, ¬ (n ≤ a ∧ a < n + 8)) →
      Mem.get u.mem a = Mem.get s.mem a) ∧
    (now.state ≠ was.state → u.regs.notice.getLsbD 3 = true) ∧
    (touches e.reads (r + 12) 12 = true → u.streams = s.streams ∧ u.mem = s.mem ∧ u.holds = s.holds ∧
      u.regs.notice.getLsbD 7 = true ∧ u.chain (.film x) = { s.chain (.film x) with
        cause := .rootRead, faultAddr := r, rootReadErrors := min ((s.chain (.film x)).rootReadErrors + 1) 65535 }) ∧
    (touches e.reads (r + 12) 12 = false →
      now.req = req ∧ now.pacing = c.pacing.getD was.pacing ∧
      now.interval = (if legal then c.interval else was.interval) ∧ now.nudgeSerial = c.serial ∧
      now.recErrors = (if bad = 0 then was.recErrors else min (was.recErrors + bad) 65535) ∧
      (req = .stop → now.state = .idle ∧ now.late = was.late ∧ now.starves = was.starves ∧
        (was.state = .idle → now.shown = was.shown ∧ now.clock = was.clock ∧ now.balance = was.balance ∧
          u.mem = s.mem ∧ u.chains = s.chains ∧ u.holds = s.holds) ∧
        (was.state ≠ .idle → now.shown = none ∧ now.clock = 0 ∧ now.fine = 0 ∧ now.balance = 0 ∧ now.lastPts = none ∧
          u.chain (.film x) = { s.chain (.film x) with state := .empty, cursor := none })) ∧
      (req ≠ .stop →
        let q := (s.filmBegun x t).filmSerial x e
        let w := q.2.filmPoll x q.1 e
        let y := q.2.streams.get x
        let dead := (q.2.chain (.film x)).state = .faulted
        let fault := (u.chain (.film x)).state = .faulted
        let bal := if c.serial = was.nudgeSerial then y.balance
          else clampInt (-18000) 18000 (y.balance + clampInt (-9000) 9000 c.amount)
        let goes := fun st : StreamState => ¬ (fault ∧ now.shown.isSome = true) → now.state = st
        let held := now.shown = y.shown ∧ now.clock = y.clock ∧ now.fine = y.fine ∧ now.balance = bal ∧
          now.lastPts = y.lastPts ∧ now.late = was.late ∧ now.starves = was.starves
        (was.state = .idle ∨ q.1 = .changed → y.state = .priming ∧ y.shown = none ∧ y.clock = 0 ∧ y.fine = 0 ∧
          y.balance = 0 ∧ y.lastPts = none) ∧
        (was.state ≠ .idle → q.1 ≠ .changed → y.state = was.state ∧ y.shown = was.shown ∧ y.clock = was.clock ∧
          y.fine = was.fine ∧ y.balance = was.balance ∧ y.lastPts = was.lastPts) ∧
        (fault → now.shown.isSome = true → now.state = .faulted) ∧
        (dead → held ∧ goes y.state) ∧
        (¬ dead →
          (y.state = .priming → match w.1.find? (fun h => h.body.valid s.settings none) with
            | none => held ∧ goes .priming
            | some h => now.shown = some h.body ∧ now.clock = h.body.pts ∧ now.fine = 0 ∧ now.balance = bal ∧
                now.lastPts = some h.body.pts ∧ goes (if req = .pause then .paused else .playing)) ∧
          (y.state = .playing ∨ y.state = .paused ∨ y.state = .starved → req = .pause → held ∧ goes .paused) ∧
          (y.state = .ended → held ∧ goes .ended) ∧
          (y.state = .starved → req = .run → held ∧ goes (if w.1 = [] then .starved else .playing)) ∧
          (y.state = .playing ∨ y.state = .paused → req = .run →
            let extra := if y.fine * (p % 16) / 16 < (y.fine + 1) * (p % 16) / 16 then 1 else 0
            let clock := y.clock + BitVec.ofNat 32 (p / 16 + extra)
            let age := match y.shown with | some f => sdiff clock f.pts | none => 0
            let rate : Int := s.settings.nudgeRate
            let step : Int := if 0 < bal then min bal rate else if bal < 0 then -(min (min (-bal) rate) (max 0 age)) else 0
            let m := clock + BitVec.ofInt 32 step
            let ds := select s.settings m w.1 y.lastPts
            now.balance = bal - step ∧
            (match (ds.filter (fun d => decide (d.2 ≠ .reject))).getLast? with
              | none => now.shown = y.shown ∧ now.clock = m ∧ now.fine = (y.fine + 1) % 16 ∧ now.lastPts = y.lastPts
              | some d => now.shown = some d.1.body ∧ now.lastPts = some d.1.body.pts ∧
                  now.clock = (if d.2 = .restart then d.1.body.pts else m) ∧
                  now.fine = (if d.2 = .restart then 0 else (y.fine + 1) % 16)) ∧
            now.late = (if lateWalk ds = true then min (was.late + 1) 65535 else was.late) ∧
            (∀ f, now.shown = some f →
              let old := sdiff now.clock f.pts
              let ends : Bool := f.last && decide ((now.interval : Int) ≤ old)
              let dry : Bool := dryWalk w.2.1 w.1.length ds.length && decide (2 * (now.interval : Int) < old)
              goes (if ends then .ended else if dry then .starved else .playing) ∧
              now.starves = (if !ends && dry then min (was.starves + 1) 65535 else was.starves))))))

/-! ## The vehicle link (Chapter 6) -/

/-- VEHICLE_LINK_BYTE and RECEIVER_IDLE_WAIT_END (sections 6.2 and 6.3): a receiver that is stopped or waits for an idle
line takes no byte; a start bit high at its middle begins none; the first 16 bytes of a message are stored in order and
judged, framing before parity, the first damage kept; a byte that finds the buffer full sets LONG and is neither stored nor
judged. Nothing outside the receiver changes. That the event that ends the idle wait of a stopped receiver, or of one that
waits for none, changes nothing is the model's choice (Log 3); the wait for the line to return high is its reading (Log
29). -/
def Obligations.BytesFillTheReceiveBuffer : Prop :=
  ∀ (s : State) (b : LineByte),
    let st := s.settings.link
    let low : Prop := b.stop1 = false ∨ (st.stopBits = 2 ∧ b.stop2 = false)
    let ones := (List.range 8).countP (fun k => b.data.getLsbD k) + (if b.parity then 1 else 0)
    let odd : Prop := st.parity = .even ∧ ones % 2 = 1 ∨ st.parity = .odd ∧ ones % 2 = 0
    (s.link.on = false ∨ s.link.waitIdle = true → exec (.vehicleLinkByte b) s = .next s) ∧
    (s.link.on = true → s.link.waitIdle = false →
      (b.start = true → exec (.vehicleLinkByte b) s = .next { s with link := { s.link with awaitHigh := false } }) ∧
      (b.start = false → s.link.buf.length < 16 → ∃ d h,
        exec (.vehicleLinkByte b) s = .next { s with
          link := { s.link with buf := s.link.buf ++ [b.data], damaged := d, awaitHigh := h } } ∧
        (h = true ↔ low) ∧
        (∀ x, s.link.damaged = some x → d = some x) ∧
        (s.link.damaged = none → (d = some .framing ↔ low) ∧ (d = some .parity ↔ ¬ low ∧ odd))) ∧
      (b.start = false → 16 ≤ s.link.buf.length →
        exec (.vehicleLinkByte b) s = .next { s with link := { s.link with long := true, awaitHigh := false } })) ∧
    (exec .receiverIdleWaitEnd s = .next { s with link := { s.link with
      waitIdle := s.link.waitIdle && !s.link.on } })

/-- MESSAGE_BOUNDARY, a message that fails a check of section 6.4: the first check that fails counts the message in its
own counter, the buffer and both marks are cleared and nothing else changes; in STANDBY nothing is counted (section 6.8).
Without a message in progress there is no boundary (Log 3). -/
def Obligations.FaultyMessagesAreCountedByTheFirstCheck : Prop :=
  ∀ s : State,
    let r := s.link
    let clear : Receiver := { r with buf := [], damaged := none, long := false, awaitHigh := false }
    let answer := fun (q : Receiver) =>
      exec .messageBoundary s = .next { s with link := if s.runState = .standby then clear else q }
    (r.on = false ∨ r.buf = [] → exec .messageBoundary s = .next s) ∧
    (r.on = true → r.buf ≠ [] →
      (r.damaged = some .parity → answer { clear with parityErrs := min (r.parityErrs + 1) 65535 }) ∧
      (r.damaged = some .framing → answer { clear with framingErrs := min (r.framingErrs + 1) 65535 }) ∧
      (r.damaged = none → r.long = true → answer { clear with longs := min (r.longs + 1) 65535 }) ∧
      (r.damaged = none → r.long = false →
        (kindOf (byteAt r.buf 0) = none → answer { clear with unknowns := min (r.unknowns + 1) 65535 }) ∧
        (∀ k, kindOf (byteAt r.buf 0) = some k →
          (r.buf.length ≠ messageLen k → answer { clear with lengths := min (r.lengths + 1) 65535 }) ∧
          (r.buf.length = messageLen k → byteSum r.buf ≠ 0 ∨ 16 ≤ byteAt r.buf 1 →
            answer { clear with checks := min (r.checks + 1) 65535 }) ∧
          (r.buf.length = messageLen k → byteSum r.buf = 0 → byteAt r.buf 1 < 16 →
            (s.vehicle.kinds.get k).alive = some (BitVec.ofNat 4 (byteAt r.buf 1)) →
            answer { clear with repeats := min (r.repeats + 1) 65535 }))))

/-- MESSAGE_BOUNDARY, a message that passes every check (sections 6.4 to 6.8): its kind becomes fresh with its timer at
the kind's limit, its alive counter is kept and the acceptance counted, VEHICLE is raised when the kind was stale, and
the record takes its values; the other kinds stand. STEER gives the guide engine its angle, SPEED the motion state and a
centre cover mark, RANGE the parking zone to guide and chime engines, where a zone become UNKNOWN in takeover asks for
the sensor-fault chime (section 9.4), GEAR the link decision and the reverse decision, DIM the dim value and every
screen's duty, recomputed at each acceptance (the model's reading, Log 24). A SPEED accepted in LINGER with direction
FORWARD at or above the linger-exit speed ends LINGER in NORMAL, and capture is judged again (R117, R122). A GEAR that
changes the reverse decision is an event at the takeover controller: a takeover start, the return to ACTIVE, a wake from
STANDBY, or the release to LINGER, NORMAL or a pending standby (R115 to R119); a takeover start asks for the
sensor-fault chime while the zone is UNKNOWN. That a refresh of the takeover picture keeps its cover mark clear is the
model's choice (Log 59). VEHICLE is raised where the kind was stale or the motion state changes (R103, R105). The guide
engine changes only in its angle and dynamic-shown flag at STEER, its zone and distance at RANGE, and its angle at a
takeover start (R104, R106, R134, R139). In STANDBY only GEAR is accepted. Only headers of held entries are written, and
those by GEAR alone. -/
def Obligations.AcceptedMessagesUpdateTheVehicleRecord : Prop :=
  ∀ (s : State) (k : Kind) (alive : BitVec 4), s.link.on = true → s.link.buf ≠ [] →
    judgeMessage s.link s.vehicle.kinds = .accept k alive →
    let l := s.link.buf
    let was := s.vehicle
    let clear : Receiver := { s.link with buf := [], damaged := none, long := false, awaitHigh := false }
    (s.runState = .standby → k ≠ .gear → exec .messageBoundary s = .next { s with link := clear }) ∧
    (s.runState ≠ .standby ∨ k = .gear → ∃ t, exec .messageBoundary s = .next t ∧
      let now := t.vehicle
      t.link = clear ∧ t.monitor = s.monitor ∧ t.settings = s.settings ∧ t.status = s.status ∧
      t.pending = s.pending ∧
      now.kinds.get k = { alive := some alive, fresh := true, timer := some (s.settings.link.fresh.get k),
                          accepted := min ((was.kinds.get k).accepted + 1) 65535 } ∧
      (∀ j, j ≠ k → now.kinds.get j = was.kinds.get j) ∧
      t.regs.notice.getLsbD 6 = (s.regs.notice.getLsbD 6 || !(was.kinds.get k).fresh || decide (now.motion ≠ was.motion)) ∧
      now.angle = (if k = .steer then clampInt (-9000) 9000 (toSigned 16 (halfAt l 2)) else was.angle) ∧
      now.speed = (if k = .speed then min (halfAt l 2) 30000 else was.speed) ∧
      now.direction = (if k = .speed then directionOf (byteAt l 4) else was.direction) ∧
      now.ranges = (if k = .range then [2, 4, 6, 8].map (fun n => max 1 (halfAt l n)) else was.ranges) ∧
      now.gear = (if k = .gear then gearOf (byteAt l 2) else was.gear) ∧
      now.dim = (if k = .dim then byteAt l 2 else was.dim) ∧
      now.dimInUse = (if k = .dim then byteAt l 2 else was.dimInUse) ∧
      now.motion = (if k = .speed then
          if s.settings.link.restrictOn ≤ now.speed then .moving
          else if now.speed ≤ s.settings.link.restrictOff then .still else was.motion
        else was.motion) ∧
      (k = .speed → now.motion ≠ .still → now.motion ≠ was.motion → ∀ r, s.screens.centre.refresh = some r →
        r.set.takeover = false → (t.screens.centre.refresh).map (·.cover) = some true) ∧
      (k = .range → t.guide.set.zone = zoneOf s.settings.guide now.ranges ∧ t.guide.set.dist = nearest now.ranges ∧
        t.chime.zone = t.guide.set.zone ∧ t.chime.dist = t.guide.set.dist ∧
        FaultChimeAsked s t (t.chime.zone = .unknown ∧ s.chime.zone ≠ .unknown ∧ s.chime.takeover ≠ .normal)) ∧
      (k = .steer ∨ k = .dim → t.chime = s.chime) ∧
      (k = .steer → t.guide = { s.guide with set := { s.guide.set with
        angleInUse := (if was.kinds.steer.fresh = false ∨
            s.settings.guide.deadband ≤ (now.angle - s.guide.set.angleInUse).natAbs then now.angle
          else s.guide.set.angleInUse)
        dynamicShown := !was.kinds.steer.fresh || s.guide.set.dynamicShown } }) ∧
      (k = .range → t.guide = { s.guide with set := { s.guide.set with
        zone := t.guide.set.zone, dist := t.guide.set.dist } }) ∧
      (k = .speed ∨ k = .dim → t.guide = s.guide) ∧ (k ≠ .dim → k ≠ .speed → k ≠ .gear → t.screens = s.screens) ∧
      (k = .speed →
        let ends := s.takeover.state = .linger ∧ now.direction = .forward ∧ s.settings.reverse.lingerExit ≤ now.speed
        (¬ ends → t.takeover = s.takeover ∧ t.camera = s.camera ∧ t.chime = s.chime) ∧
        (ends → t.takeover.state = .normal ∧ t.takeover.linger = none ∧ t.takeover.reverse = s.takeover.reverse ∧
          t.takeover.pendingStandby = s.takeover.pendingStandby ∧ t.takeover.takeovers = s.takeover.takeovers ∧
          t.regs.notice.getLsbD 4 = true ∧
          t.takeover.losts = s.takeover.losts ∧ CaptureJudged s t s.captureAtRest s.freesShown ∧
          t.chime.takeover = .normal ∧ t.chime.pending = false ∧ t.chime.cad = .off)) ∧
      (k = .gear →
        let d := t.takeover.reverse
        t.takeover.linkDecision = decide (now.gear = .r) ∧
        d = reverseDecision s.settings.reverse.source s.monitor.decision t.takeover.linkDecision ∧
        (d = s.takeover.reverse ∨ d = false ∧ s.takeover.state ≠ .active →
          t.takeover = { s.takeover with linkDecision := t.takeover.linkDecision, reverse := d } ∧ t.camera = s.camera ∧
          t.guide = s.guide ∧ t.capLoad = s.capLoad ∧ t.screens = s.screens ∧
          t.chime = s.chime ∧ t.holds = s.holds ∧ t.mem = s.mem ∧ t.runState = s.runState) ∧
        ReverseEvent s t d) ∧
      (k = .dim → ∀ i, let sc := s.screens.get i
        (t.screens.get i).duty =
          (if sc.showsTakeover then max (s.settings.takeoverBrightness * byteAt l 2 / 255) s.settings.brightnessFloor
          else match sc.plan with
            | some p => if sc.mode = .dark then 0 else p.brightness * byteAt l 2 / 255
            | none => 0)) ∧
      (k ≠ .gear → t.mem = s.mem ∧ t.holds = s.holds ∧ t.chains = s.chains ∧ t.streams = s.streams ∧
        t.runState = s.runState) ∧
      (k ≠ .gear → k ≠ .speed → t.takeover = s.takeover ∧ t.camera = s.camera ∧ t.capLoad = s.capLoad) ∧
      (∀ a, (∀ h ∈ s.holds, ¬ (h.addr ≤ a ∧ a < h.addr + 8)) → Mem.get t.mem a = Mem.get s.mem a))

/-- R139. At an accepted RANGE message outside STANDBY the parking zone record is set from the four distances as kept:
the nearest distance is the least one that is neither no echo nor sensor fault, none when there is none; the zone is UNKNOWN
when all four are sensor fault, else CLEAR without a nearest distance or at Dfar and beyond, else STOP at Dnear and below,
else CAUTION. A 0 in the message counts as 1. -/
def Obligations.RangeMessagesSetTheParkingZone : Prop :=
  ∀ (s : State) (alive : BitVec 4), s.link.on = true → s.link.buf ≠ [] → s.runState ≠ .standby →
    judgeMessage s.link s.vehicle.kinds = .accept .range alive →
    ∃ t, exec .messageBoundary s = .next t ∧
      let d := t.guide.set.dist
      let z := t.guide.set.zone
      let g := s.settings.guide
      t.vehicle.ranges = [2, 4, 6, 8].map (fun n => if halfAt s.link.buf n = 0 then 1 else halfAt s.link.buf n) ∧
      (∀ v, d = some v ↔ v ∈ t.vehicle.ranges ∧ v ≠ 0xFFFF ∧ v ≠ 0xFFFE ∧
        ∀ w ∈ t.vehicle.ranges, w ≠ 0xFFFF → w ≠ 0xFFFE → v ≤ w) ∧
      (d = none ↔ ∀ w ∈ t.vehicle.ranges, w = 0xFFFF ∨ w = 0xFFFE) ∧
      ((∀ w ∈ t.vehicle.ranges, w = 0xFFFE) → z = .unknown) ∧
      (¬ (∀ w ∈ t.vehicle.ranges, w = 0xFFFE) →
        (d = none → z = .clear) ∧
        (∀ v, d = some v → (g.dFar ≤ v → z = .clear) ∧ (v < g.dFar → v ≤ g.dNear → z = .stop) ∧
          (v < g.dFar → g.dNear < v → z = .caution)))

/-- FRESHNESS_TIMER_EXPIRY of a running timer: the kind becomes stale, its timer stops, VEHICLE is raised and every
value is kept; a stale STEER hides the dynamic lines, a stale SPEED makes the motion state UNKNOWN, a stale RANGE the
zone UNKNOWN, which in takeover asks for the sensor-fault chime where the zone held was another (section 9.4); the link
decision and the dim value in use are held (sections 6.5, 6.6, 7.3, 8.2 and 8.5). That the expiry event of a stopped
timer changes nothing is the model's choice (Log 3). No memory is written. That a refresh of the takeover picture keeps
its cover mark clear is the model's choice (Log 59). -/
def Obligations.StaleKindsAreHandedToTheirReaders : Prop :=
  ∀ (s : State) (k : Kind),
    ((s.vehicle.kinds.get k).timer = none → exec (.freshnessTimerExpiry k) s = .next s) ∧
    ((s.vehicle.kinds.get k).timer ≠ none → ∃ t, exec (.freshnessTimerExpiry k) s = .next t ∧
      t.vehicle.kinds = s.vehicle.kinds.set k { s.vehicle.kinds.get k with fresh := false, timer := none } ∧
      t.vehicle = { s.vehicle with kinds := t.vehicle.kinds, motion := t.vehicle.motion } ∧
      t.regs.notice.getLsbD 6 = true ∧
      t.vehicle.motion = (if k = .speed then .unknown else s.vehicle.motion) ∧
      (k = .speed → s.vehicle.motion ≠ .unknown → ∀ r, s.screens.centre.refresh = some r → r.set.takeover = false →
        (t.screens.centre.refresh).map (·.cover) = some true) ∧
      t.guide.set = (match k with
        | .steer => { s.guide.set with dynamicShown := false }
        | .range => { s.guide.set with zone := .unknown, dist := none }
        | _ => s.guide.set) ∧
      (k = .range → t.chime.zone = .unknown ∧ t.chime.dist = none ∧ t.chime.cad = .off ∧
        FaultChimeAsked s t (s.chime.zone ≠ .unknown ∧ s.chime.takeover ≠ .normal)) ∧
      (k ≠ .range → t.chime = s.chime) ∧ (k ≠ .speed → t.screens = s.screens) ∧
      t.takeover = s.takeover ∧ t.link = s.link ∧ t.monitor = s.monitor ∧ t.camera = s.camera ∧ t.streams = s.streams ∧
      t.chains = s.chains ∧ t.holds = s.holds ∧ t.mem = s.mem ∧ t.runState = s.runState ∧ t.settings = s.settings ∧
      t.status = s.status ∧ t.pending = s.pending)

/-! ## Reverse, takeover and camera (Chapter 7) -/

/-- REVERSE_LINE_ACTIVE and REVERSE_LINE_INACTIVE (section 7.2): the line takes its level; a running monitor moves between
its four states, starts or stops its settle timer, records the length of the period that ended, saturating, and counts a
glitch, a short pulse or a dropout; a stopped one does not move. Nothing else changes. That a change to a level the line has
already changes only the pin is the model's choice (Log 3), and so are the time operand (Log 7) and the level taken in OFF
and STARTING, by the polarity of the last start (Log 43). -/
def Obligations.LineChangesMoveTheReverseMonitor : Prop :=
  ∀ (s : State) (ms : Nat),
    let m := s.monitor
    let st := s.settings.reverse
    let len := min (m.sinceChange + ms) 65535
    let active := fun (n : Monitor) => exec (.reverseLineActive ms) s = .next { s with linePin := !st.activeLow, monitor := n }
    let inactive := fun (n : Monitor) => exec (.reverseLineInactive ms) s = .next { s with linePin := st.activeLow, monitor := n }
    (m.on = false → active m ∧ inactive m) ∧
    (m.on = true →
      (m.state = .released → inactive m ∧
        active { m with state := .onPending, settle := some st.settleOn, inactiveLen := len, sinceChange := 0 }) ∧
      (m.state = .onPending → active m ∧
        (m.sinceChange + ms < st.glitch → inactive { m with
          state := .released, settle := none, activeLen := len, sinceChange := 0, glitches := min (m.glitches + 1) 65535 }) ∧
        (st.glitch ≤ m.sinceChange + ms → inactive { m with
          state := .released, settle := none, activeLen := len, sinceChange := 0, shorts := min (m.shorts + 1) 65535 })) ∧
      (m.state = .engaged → active m ∧
        inactive { m with state := .offPending, settle := some st.settleOff, activeLen := len, sinceChange := 0 }) ∧
      (m.state = .offPending → inactive m ∧
        active { m with state := .engaged, settle := none, inactiveLen := len, sinceChange := 0,
                        dropouts := min (m.dropouts + 1) 65535 }))

/-- SETTLE_TIMER_EXPIRY (sections 7.2 to 7.4): ON_PENDING becomes ENGAGED, OFF_PENDING RELEASED; lengths and counters
stand, and the time since the line last changed grows by the settle time, which is how the model keeps it (Log 7). A
change of the reverse decision is an event at the takeover controller. Engaged: in RUN a NORMAL controller makes a
takeover start, a LINGER one returns to ACTIVE; in STANDBY the part wakes. Released in ACTIVE: with a pending standby
the part enters STANDBY; else the controller goes to NORMAL with a linger time of 0 or the car going forward, and else
to LINGER with the timer set. A takeover start enables capture where it was not, STANDBY disables it and releases the
queued chime entries, NORMAL has its condition judged again, and each state is handed to the chime engine (sections 7.6
and 9.8). A takeover start asks for the sensor-fault chime while the zone held is UNKNOWN, and the return to NORMAL
clears a pending one (section 9.4). That the expiry event of a stopped settle timer changes nothing is the model's
choice (Log 3). -/
def Obligations.SettledReverseDecisionDrivesTheTakeover : Prop :=
  ∀ (s : State), (s.monitor.settle = none → exec .settleTimerExpiry s = .next s) ∧
    ∀ n, s.monitor.settle = some n → ∃ t, exec .settleTimerExpiry s = .next t ∧
      let st := s.settings.reverse
      let d := reverseDecision st.source t.monitor.decision s.takeover.linkDecision
      t.monitor = { s.monitor with
        settle := none
        state := (match s.monitor.state with | .onPending => .engaged | .offPending => .released | x => x)
        sinceChange := (match s.monitor.state with
          | .onPending => s.monitor.sinceChange + n | .offPending => s.monitor.sinceChange + n
          | _ => s.monitor.sinceChange) } ∧
      t.takeover.reverse = d ∧ t.takeover.linkDecision = s.takeover.linkDecision ∧
      (d = s.takeover.reverse → t = { s with monitor := t.monitor }) ∧
      ReverseEvent s t d ∧
      (d = false → s.takeover.reverse = true → s.takeover.state ≠ .active →
        t = { s with monitor := t.monitor, takeover := t.takeover } ∧ t.takeover = { s.takeover with reverse := false }) ∧
      t.link = s.link ∧ t.vehicle = s.vehicle ∧ t.streams.a.state = s.streams.a.state ∧
      t.streams.b.state = s.streams.b.state ∧ t.chains = s.chains ∧ t.status = s.status ∧ t.settings = s.settings ∧
      t.pending = s.pending ∧
      (∀ a, (∀ h ∈ s.holds, ¬ (h.addr ≤ a ∧ a < h.addr + 8)) → Mem.get t.mem a = Mem.get s.mem a)

/-- LINGER_TIMER_EXPIRY of a running linger timer, and DISMISS in RUN with LINGER, return the controller to NORMAL: the
timer stops, TAKEOVER is raised, the chime engine learns of it and its cadence ends, and capture stays as it is, its
view status and timers kept, only for a CAMERA layer of the current plan or warm capture (sections 7.4, 7.6 and 9.5).
Disabled, its unit goes IDLE with no frame in progress, CAPTURING and READY become FREE, a SHOWN buffer keeps its role,
the camera is silent with view status and timers ended, no load is counted, and the counters stand. Enabled where it was
not, which no run shows here, it goes SEEKING and silent, takes the lowest-numbered FREE buffer for CAPTURING, a SHOWN
one keeping its role, counts the load, and gives WAIT with the start limit. A DISMISS otherwise changes nothing; that
the expiry event of a stopped linger timer changes nothing is the model's choice (Log 3). -/
def Obligations.LingerEndsInNormal : Prop :=
  ∀ (s : State) (c : Instr),
    (c = .lingerTimerExpiry ∧ s.takeover.linger = none ∨
      c = .dismiss ∧ ¬ (s.runState = .run ∧ s.takeover.state = .linger) → exec c s = .next s) ∧
    (c = .lingerTimerExpiry ∧ s.takeover.linger ≠ none ∨
      c = .dismiss ∧ s.runState = .run ∧ s.takeover.state = .linger → ∃ t, exec c s = .next t ∧
      t.takeover = { s.takeover with state := .normal, linger := none, view := t.takeover.view
                                     startLimit := t.takeover.startLimit, silence := t.takeover.silence } ∧
      t.regs = { s.regs with notice := t.regs.notice } ∧ t.regs.notice.getLsbD 4 = true ∧
      CaptureJudged s t (decide (s.runState = .run) && (s.screens.centre.hasCamera || s.settings.camera.warm))
        (decide (s.runState ≠ .run) && s.screens.centre.refresh.isNone) ∧
      t.chime.takeover = .normal ∧ t.chime.pending = false ∧ t.chime.cad = .off ∧
      t.chime.alertQ = s.chime.alertQ ∧ t.chime.uiQ = s.chime.uiQ ∧
      t = { s with takeover := t.takeover, regs := t.regs, camera := t.camera, capLoad := t.capLoad, chime := t.chime })

/-- START_LIMIT_EXPIRY in WAIT and SILENCE_TIMER_EXPIRY in LIVE make the view status LOST, counted, with TAKEOVER raised;
the silence timer sets the silent mark as it expires (sections 7.7 and 7.8). That the expiry event of a stopped timer, and
of a start limit timer outside WAIT, has no other effect is the model's choice (Log 3). At a centre frame start with capture
enabled whose new refresh is a camera refresh, the READY buffer becomes SHOWN, the buffer SHOWN before it FREE, and the view
status LIVE with the start limit timer stopped; a SHOWN buffer the new refresh will not draw becomes FREE (section 7.7). -/
def Obligations.CameraTimersLoseTheView : Prop :=
  ∀ s : State,
    (s.takeover.startLimit = none → exec .startLimitExpiry s = .next s) ∧
    (s.takeover.startLimit ≠ none → s.takeover.view ≠ some .wait →
      exec .startLimitExpiry s = .next { s with takeover := { s.takeover with startLimit := none } }) ∧
    (s.takeover.startLimit ≠ none → s.takeover.view = some .wait → exec .startLimitExpiry s = .next { s with
      takeover := { s.takeover with startLimit := none, view := some .lost, losts := min (s.takeover.losts + 1) 65535 }
      regs := { s.regs with notice := s.regs.notice ||| 0x10 } }) ∧
    (s.takeover.silence = none → exec .silenceTimerExpiry s = .next s) ∧
    (s.takeover.silence ≠ none → s.takeover.view ≠ some .live → exec .silenceTimerExpiry s = .next { s with
      takeover := { s.takeover with silence := none }
      camera := { s.camera with silent := true } }) ∧
    (s.takeover.silence ≠ none → s.takeover.view = some .live → exec .silenceTimerExpiry s = .next { s with
      takeover := { s.takeover with silence := none, view := some .lost, losts := min (s.takeover.losts + 1) 65535 }
      camera := { s.camera with silent := true }
      regs := { s.regs with notice := s.regs.notice ||| 0x10 } }) ∧
    (∀ b : Bool,
      let t := s.rotateBuffers b
      let taken : Bool := s.camera.enabled && b && decide (roleCount s.camera.roles .ready ≠ 0)
      let drawn : Bool := b && decide (t.takeover.view = some .live)
      let raised : Bool := taken && decide (s.takeover.view ≠ some .live)
      t = { s with
        camera := { s.camera with roles := t.camera.roles }
        takeover := { s.takeover with
          view := if taken then some .live else s.takeover.view
          startLimit := if taken then none else s.takeover.startLimit }
        regs := { s.regs with notice := if raised then s.regs.notice ||| 0x10 else s.regs.notice } } ∧
      (∀ n, n < 3 → roleCount s.camera.roles .ready ≤ 1 → roleCount s.camera.roles .shown ≤ 1 →
        (s.camera.roles.get n = .capturing → t.camera.roles.get n = .capturing) ∧
        (s.camera.roles.get n = .free → t.camera.roles.get n = .free) ∧
        (s.camera.roles.get n = .ready → t.camera.roles.get n = (if taken then .shown else .ready)) ∧
        (s.camera.roles.get n = .shown → t.camera.roles.get n = (if drawn && !taken then .shown else .free))))

/-- CAMERA_FRAME_START_MARKER, CAMERA_LINE_MARKER and CAMERA_WRITE_ERROR (section 7.7): a frame begins in SEEKING; in
RECEIVING a frame-start marker cuts the frame off, counts the first error it had noted, else TRUNCATED, raises CAMERA and
begins the next; a line marker completes the line before it (a LINE error unless it held CW pixels), notes COUNT beyond CH
lines and begins a line; a write error notes WRITE and ends the frame's writes. The first error noted stays; that LINE is
noted before TRUNCATED and COUNT at one marker is the model's choice (Log 12). No buffer changes its role and no memory
is written; that a failed write leaves memory as it stands, and that one reported after its frame's end marker counts
nothing, is the model's choice (Log 21). Outside RECEIVING a line marker changes nothing; that an error reported there
changes nothing is the model's choice (Log 3). -/
def Obligations.CameraMarkersFrameThePixels : Prop :=
  ∀ s : State,
    let c := s.camera
    let cw := s.settings.camera.width
    let ch := s.settings.camera.height
    let lineErr : Option CameraError := if c.inLine = true ∧ c.pixels ≠ cw then some .line else none
    let fresh := fun (k : Camera) =>
      ({ k with unit := .receiving, lines := 0, inLine := false, pixels := 0, error := none, writeStopped := false } : Camera)
    (c.unit = .idle → exec .cameraFrameStartMarker s = .next s) ∧
    (c.unit = .seeking → exec .cameraFrameStartMarker s = .next { s with camera := fresh c }) ∧
    (c.unit = .receiving → exec .cameraFrameStartMarker s = .next { s with
      camera := fresh (c.countError (((c.error <|> lineErr) <|> some CameraError.truncated).getD .truncated))
      regs := { s.regs with notice := s.regs.notice ||| 0x20 } }) ∧
    (c.unit ≠ .receiving → exec .cameraLineMarker s = .next s ∧ exec .cameraWriteError s = .next s) ∧
    (c.unit = .receiving →
      exec .cameraLineMarker s = .next { s with camera := { c with
        lines := c.lines + 1, inLine := true, pixels := 0
        error := (c.error <|> lineErr) <|> (if ch ≤ c.lines then some .count else none) } } ∧
      exec .cameraWriteError s = .next { s with camera := { c with
        error := c.error <|> some .write, writeStopped := true } })

/-- CAMERA_PIXEL (section 7.7): a pixel of a line within the CH lines and CW columns is written, two bytes, at its place
in the CAPTURING buffer, unless a write error ended the frame's writes; one beyond them is counted and not written, one
before the first line is a LINE error. Every other byte of memory and every other part of the state stands. -/
def Obligations.CameraPixelsFillTheCapturingBuffer : Prop :=
  ∀ (s : State) (y c : Byte),
    let k := s.camera
    let st := s.settings.camera
    (k.unit ≠ .receiving → exec (.cameraPixel y c) s = .next s) ∧
    (k.unit = .receiving → k.inLine = false → exec (.cameraPixel y c) s = .next { s with
      camera := { k with error := k.error <|> some .line } }) ∧
    (k.unit = .receiving → k.inLine = true →
      (st.height < k.lines ∨ st.width ≤ k.pixels ∨ k.writeStopped = true ∨ roleCount k.roles .capturing = 0 →
        exec (.cameraPixel y c) s = .next { s with camera := { k with pixels := k.pixels + 1 } }) ∧
      (∀ n, n < 3 → k.roles.get n = .capturing → (∀ j, j < n → k.roles.get j ≠ .capturing) → k.lines ≤ st.height →
        k.pixels < st.width → k.writeStopped = false →
        let a := st.buffers.get n + (k.lines - 1) * st.width * 2 + k.pixels * 2
        ∃ m, exec (.cameraPixel y c) s = .next { s with mem := m, camera := { k with pixels := k.pixels + 1 } } ∧
          (a + 2 ≤ 2 ^ 64 → Mem.get m a = y ∧ Mem.get m (a + 1) = c) ∧
          ∀ b, b ≠ a → b ≠ a + 1 → Mem.get m b = Mem.get s.mem b))

/-- CAMERA_FRAME_END_MARKER (section 7.7): a frame without an error, its last line complete and all CH lines there, is
correct: the CAPTURING buffer becomes READY, the buffer READY before it, its frame dropped and counted, or else the
lowest-numbered FREE one becomes CAPTURING, the frame is counted, the silent mark cleared and the silence timer restarted. A
frame with an error is counted by its first error and CAMERA raised, every role kept; that LINE is noted before COUNT at one
marker is the model's choice (Log 12). The unit returns to SEEKING either way, and no memory is written. -/
def Obligations.CameraFrameEndsCorrectOrDiscarded : Prop :=
  ∀ s : State,
    let c := s.camera
    let st := s.settings.camera
    let lineErr : Option CameraError := if c.inLine = true ∧ c.pixels ≠ st.width then some .line else none
    let err := (c.error <|> lineErr) <|> (if c.lines < st.height then some CameraError.count else none)
    let ends := fun (k : Camera) =>
      ({ k with unit := .seeking, lines := 0, inLine := false, pixels := 0, error := none, writeStopped := false } : Camera)
    (c.unit ≠ .receiving → exec .cameraFrameEndMarker s = .next s) ∧
    (∀ x, c.unit = .receiving → err = some x → exec .cameraFrameEndMarker s = .next { s with
      camera := (ends c).countError x
      regs := { s.regs with notice := s.regs.notice ||| 0x20 } }) ∧
    (c.unit = .receiving → err = none → ∃ t, exec .cameraFrameEndMarker s = .next t ∧
      t = { s with camera := t.camera, takeover := { s.takeover with silence := some st.silence } } ∧
      t.camera = { ends c with roles := t.camera.roles, silent := false, correct := min (c.correct + 1) 65535,
                               dropped := if roleCount c.roles .ready = 0 then c.dropped else min (c.dropped + 1) 65535 } ∧
      (∀ n, n < 3 → roleCount c.roles .capturing = 1 → roleCount c.roles .ready ≤ 1 → roleCount c.roles .shown ≤ 1 →
        (c.roles.get n = .capturing → t.camera.roles.get n = .ready) ∧
        (c.roles.get n = .ready → t.camera.roles.get n = .capturing) ∧
        (c.roles.get n = .shown → t.camera.roles.get n = .shown) ∧
        (c.roles.get n = .free → t.camera.roles.get n =
          (if roleCount c.roles .ready = 0 ∧ ∀ j, j < n → c.roles.get j ≠ .free then .capturing else .free))))

/-- Interpolation (section 8.3) on a table of two or more rising angles: the angle used is the angle in use clamped to the
table, it lies in the bracket found, no lower bracket holds it, the weight lies from 0 to 256, and each point of the dynamic
lines is interpolated at that weight between the points of the bracket's two nodes; a coordinate is that of the lower node
plus floor((difference × weight + 128) / 256), the points of the bracket's ends are reached at weights 0 and 256, and every
coordinate lies between those it is interpolated from. The obstacle marker (section 8.6) is placed likewise at the nearest
distance, clamped to the marks, on the dynamic lines while they are shown and on the static ones else; in UNKNOWN and CLEAR
it is hidden and its ends are kept. -/
def Obligations.InterpolationStaysInItsBracket : Prop :=
  (∀ (g : Guide) (t : GuideTable), g.table = some t → 2 ≤ t.angles.length → t.angles.Pairwise (· < ·) →
    let r := g.interpolate.set
    let lo := t.angles.getD r.bracket 0
    let hi := t.angles.getD (r.bracket + 1) 0
    let between := fun (l : List Pt) (nodes : List (List Pt)) => ∀ (j : Nat) (a b : Pt),
      (nodes.getD r.bracket [])[j]? = some a → (nodes.getD (r.bracket + 1) [])[j]? = some b →
      l[j]? = some (⟨interpCoord a.x b.x r.weight, interpCoord a.y b.y r.weight⟩ : Pt)
    r.angleUsed = clampInt (t.angles.headD 0) (t.angles.getLastD 0) g.set.angleInUse ∧
    r.bracket + 1 < t.angles.length ∧ lo ≤ r.angleUsed ∧ r.angleUsed ≤ hi ∧
    (∀ k, k < r.bracket → t.angles.getD (k + 1) 0 < r.angleUsed) ∧
    r.weight ≤ 256 ∧ (r.weight : Int) = (r.angleUsed - lo) * 256 / (hi - lo) ∧
    between r.dynLeft t.dynLeft ∧ between r.dynRight t.dynRight ∧
    r.dynLeft.length = min (t.dynLeft.getD r.bracket []).length (t.dynLeft.getD (r.bracket + 1) []).length ∧
    r.dynRight.length = min (t.dynRight.getD r.bracket []).length (t.dynRight.getD (r.bracket + 1) []).length ∧
    g.interpolate = { g with set := { g.set with angleUsed := r.angleUsed, bracket := r.bracket, weight := r.weight,
                                                 dynLeft := r.dynLeft, dynRight := r.dynRight } }) ∧
  (∀ (a b : Int) (w : Nat), interpCoord a b w = a + ((b - a) * w + 128) / 256) ∧
  (∀ (a b : Int) (w : Nat), w ≤ 256 →
    (a ≤ b → a ≤ interpCoord a b w ∧ interpCoord a b w ≤ b) ∧ (b ≤ a → b ≤ interpCoord a b w ∧ interpCoord a b w ≤ a) ∧
    interpCoord a b 0 = a ∧ interpCoord a b 256 = b) ∧
  (∀ g : Guide, g.table = none → g.interpolate = g ∧ g.placeMarker = g) ∧
  (∀ (g : Guide) (t : GuideTable), g.table = some t → 2 ≤ t.dists.length → t.dists.Pairwise (· < ·) →
    let r := g.placeMarker.set
    let left := if g.set.dynamicShown then g.set.dynLeft else t.statLeft
    let right := if g.set.dynamicShown then g.set.dynRight else t.statRight
    (g.set.zone = .unknown ∨ g.set.zone = .clear → g.placeMarker = { g with set := { g.set with markerShown := false } }) ∧
    (∀ d, g.set.zone = .caution ∨ g.set.zone = .stop → g.set.dist = some d →
      g.placeMarker = { g with set := { g.set with markerShown := true, markerDist := r.markerDist,
                                                   markerLeft := r.markerLeft, markerRight := r.markerRight } } ∧
      r.markerDist = max (t.dists.headD 0) (min d (t.dists.getLastD 0)) ∧
      ∃ j, j + 1 < t.dists.length ∧ t.dists.getD j 0 ≤ r.markerDist ∧ r.markerDist ≤ t.dists.getD (j + 1) 0 ∧
        (∀ k, k < j → t.dists.getD (k + 1) 0 < r.markerDist) ∧
        let u := (r.markerDist - t.dists.getD j 0) * 256 / (t.dists.getD (j + 1) 0 - t.dists.getD j 0)
        (∀ a b, left[j]? = some a → left[j + 1]? = some b →
          r.markerLeft = ⟨interpCoord a.x b.x u, interpCoord a.y b.y u⟩) ∧
        (∀ a b, right[j]? = some a → right[j + 1]? = some b →
          r.markerRight = ⟨interpCoord a.x b.x u, interpCoord a.y b.y u⟩)))

/-! ## Chimes (Chapter 9) -/

/-- CHIME_TICK in RUN with the tick running (sections 9.2 to 9.5 and 9.7): the entries its walk hands are dealt with one
after the other in chain order (as stated of each below), none where the serial cannot be read. An idle UI voice then begins
the head of its queue. The alert voice begins a pending sensor-fault chime with a usable pattern, which is counted and
pushes back a RESUMABLE entry to wait at the head and drops another (that the words of held entries are written is an
invariant stated below); else it plays on what it plays, or begins the head of its queue. Each begins at its pattern's first
note that lasts, after the handover release of a note that sounds, and counts as used and not waiting, its status TAKEN at
the tick, which is the model's choice (Log 52). The cadence follows zone and takeover state as last handed, its period
10 × (T div 10) with T of R157. It sounds on the alert voice that plays nothing and releases nothing: a beep at each period
start, a tone from the sounding note's phase and envelope on the entry into STOP and anew once nothing mutes it, and the
tone made into a beep on the return to CAUTION; an entry cancelled at this very tick that leaves no release mutes it no
longer, which is the model's choice (Log 53), and so is the period of 0 in STOP (Log 37). The duck line follows its
condition. Nothing but the chime engine, the chime chain and its entries, notices and the headers of held and newly reached
entries changes. That outside RUN or with the tick stopped the event changes nothing is the model's choice (Log 3). -/
def Obligations.ChimeTickServesBothVoices : Prop :=
  ∀ (s : State) (e : LinkErrs),
    (s.runState ≠ .run ∨ s.chime.tickOn = false → exec (.chimeTick e) s = .next s) ∧
    (s.runState = .run → s.chime.tickOn = true → ∃ t, exec (.chimeTick e) s = .next t ∧
      let was := s.chime
      let now := t.chime
      let st := s.settings.chime
      let cond : Prop := was.takeover ≠ .normal ∧ (was.zone = .caution ∨ was.zone = .stop)
      let g := s.settings.guide
      let d : Int := was.dist.getD 0
      let T : Int := st.tMin + ((st.tMax : Int) - st.tMin) * (d - g.dNear) / ((g.dFar : Int) - g.dNear)
      let q := { s with chime := { was with clipped := false } }.checkSerial .chime e
      let r := q.2.pollWalk readChimeEntry .chime e
      let dealt := if q.1 = .failed then q.2
        else r.1.zipIdx.foldl (fun u h => u.dealChime h.1 (h.2 + 1 == r.1.length)) r.2.2
      let marked := if q.1 = .failed then dealt else dealt.moveCursor .chime (r.1.map (·.addr))
      let mid := dealt.chime
      let mark := fun (p : Bool) (a : Nat) (l : List QEntry) => l.map (fun x => if x.addr = a then { x with playing := p } else x)
      let notes := fun x : QEntry => (was.library.getD x.pattern none).getD []
      let sounding := fun n : Note => match n.segs with
        | [] => false
        | .silence _ :: _ => false
        | _ => !(decide (n.pos = 0) && decide (n.env = 0))
      let release := fun v : Voice => match v.fade, v.note with
        | some f, _ => some f
        | none, some n => if sounding n then
            some ({ tone := n.tone, phase := n.phase, e0 := n.env, m := 0, cadence := v.play.isNone, duck := false } : Fade)
          else none
        | none, none => none
      let begun := fun (v : Voice) (src : PlaySource) (p : Pattern) =>
        ({ play := some { source := src, pattern := p, idx := (openingNote p).1 }, note := some (openingNote p).2,
           fade := release v } : Voice)
      let held := fun (a : Nat) (f : Hold → Hold) => ∀ h, marked.hold? .chime a = some h → (f h).isFree = false →
        t.hold? .chime a = some { f h with written := some (f h).heldWord }
      let takes := fun h : Hold => { h with used := true, waiting := false }
      let fault : Option Pattern := if was.pending = true ∧ st.faultPattern ≠ 255 then was.library.getD st.faultPattern none
        else none
      let lasting := fun l : List Seg => l.filter (fun g => decide (g.len? ≠ some 0))
      let park : Tone := { freq := st.parkFreq, wave := st.parkWave, duty := 128, level := st.parkLevel }
      let beep : Note := { tone := park, phase := 0, pos := 0, env := 0, segs := lasting [.attack 0 (48 * st.parkAttack),
        .hold (48 * (st.beep - st.parkAttack - st.parkRelease)), .release 4096 (48 * st.parkRelease)] }
      let tone := fun (ph : Word) (e0 : Nat) =>
        ({ tone := park, phase := ph, pos := 0, env := e0,
           segs := lasting [.attack e0 (48 * st.parkAttack)] ++ [.sustain] } : Note)
      let rest := fun used : Nat => lasting [.hold (48 * (st.beep - st.parkRelease) - used), .release 4096 (48 * st.parkRelease)]
      let cut := fun n : Note => match n.segs with
        | .attack e0 len :: _ => { n with segs := .attack e0 len :: rest (len - n.pos) }
        | _ => { n with segs := rest 0, pos := 0 }
      t.chain .chime = marked.chain .chime ∧
      (mid.uiQ = [] ∨ mid.ui ≠ Voice.idle → now.ui = mid.ui ∧ now.uiQ = mid.uiQ) ∧
      (∀ x l, mid.uiQ = x :: l → mid.ui = Voice.idle →
        now.ui = begun Voice.idle (.entry x.addr) (notes x) ∧ now.uiQ = mark true x.addr mid.uiQ ∧
        ((∀ y ∈ mid.alertQ, y.addr ≠ x.addr) → held x.addr takes)) ∧
      (∀ p, fault = some p → now.alert = begun mid.alert .fault p ∧ now.pending = false ∧
        now.faultChimes = min (was.faultChimes + 1) 65535 ∧
        (mid.alertQ = [] → now.alertQ = [] ∧ now.dropped = mid.dropped) ∧
        (∀ x l, mid.alertQ = x :: l →
          (x.playing = false → now.alertQ = mid.alertQ ∧ now.dropped = mid.dropped) ∧
          (x.playing = true → x.resumable = true → now.alertQ = mark false x.addr mid.alertQ ∧ now.dropped = mid.dropped ∧
            ((∀ y ∈ mid.uiQ, y.addr ≠ x.addr) → held x.addr (fun h => { h with waiting := true }))) ∧
          (x.playing = true → x.resumable = false → now.alertQ = mid.alertQ.filter (fun y => y.addr != x.addr) ∧
            now.dropped = min (mid.dropped + 1) 65535 ∧
            (s.HoldsWritten → (∀ y ∈ mid.uiQ, y.addr ≠ x.addr) → held x.addr (fun h =>
              { h with verdict := some .dropped, count := x.plays, client := false, waiting := false }))))) ∧
      (fault = none → now.pending = was.pending ∧ now.faultChimes = was.faultChimes ∧ now.dropped = mid.dropped ∧
        (mid.alert.play ≠ none → now.alert = mid.alert ∧ now.alertQ = mid.alertQ) ∧
        (∀ x l, mid.alert.play = none → mid.alertQ = x :: l →
          now.alert = begun mid.alert (.entry x.addr) (notes x) ∧ now.alertQ = mark true x.addr mid.alertQ ∧
          ((∀ y ∈ mid.uiQ, y.addr ≠ x.addr) → held x.addr takes)) ∧
        (mid.alert.play = none → mid.alertQ = [] → now.alertQ = [] ∧
          let v := mid.alert
          let sounds := fun n : Note => now.alert = { v with note := some n }
          (¬ cond ∨ v.fade ≠ none → now.alert = v) ∧
          (cond → v.fade = none → was.zone = .caution →
            (was.cad = .off ∨ was.cad = .caution ∧ was.ticksLeft ≤ 1 → sounds beep) ∧
            (was.cad = .caution → 1 < was.ticksLeft → now.alert = v) ∧
            (was.cad = .stop → sounds (match v.note with | some n => cut n | none => beep))) ∧
          (cond → v.fade = none → was.zone = .stop →
            (was.cad ≠ .stop → sounds (match v.note with | some n => tone n.phase n.env | none => tone 0 0)) ∧
            (was.cad = .stop → sounds (v.note.getD (tone 0 0)))))) ∧
      (¬ cond → now.cad = was.cad ∧ now.period = was.period ∧ now.ticksLeft = was.ticksLeft) ∧
      (cond → was.zone = .stop → now.cad = .stop ∧
        (was.cad = .stop → now.period = was.period ∧ now.ticksLeft = was.ticksLeft) ∧
        (was.cad ≠ .stop → now.period = 0 ∧ now.ticksLeft = 0)) ∧
      (cond → was.zone = .caution → now.cad = .caution ∧
        (was.cad ≠ .caution ∨ was.ticksLeft ≤ 1 → now.period = (10 * (T / 10)).toNat ∧
          now.ticksLeft = now.period / 10) ∧
        (was.cad = .caution → 1 < was.ticksLeft → now.period = was.period ∧ now.ticksLeft = was.ticksLeft - 1)) ∧
      (now.duckCond = true ↔ now.alert ≠ Voice.idle ∨ now.cad ≠ .off ∨
        (∃ x ∈ now.uiQ, x.playing = true ∧ x.duck = true) ∨ ∃ f, now.ui.fade = some f ∧ f.duck = true) ∧
      (now.duckCond = true → now.duck = true ∧ now.duckTimer = none) ∧
      (now.duckCond = false →
        (was.duck = false ∨ was.duckTimer ≠ none → now.duck = was.duck ∧ now.duckTimer = was.duckTimer) ∧
        (was.duck = true → was.duckTimer = none → now.duck = decide (st.duckHold ≠ 0) ∧
          now.duckTimer = (if st.duckHold = 0 then none else some st.duckHold))) ∧
      now = { mid with alert := now.alert, ui := now.ui, alertQ := now.alertQ, uiQ := now.uiQ, pending := now.pending,
                       faultChimes := now.faultChimes, dropped := now.dropped, cad := now.cad, period := now.period,
                       ticksLeft := now.ticksLeft, duck := now.duck, duckTimer := now.duckTimer } ∧
      now.clipped = false ∧
      now.zone = was.zone ∧ now.dist = was.dist ∧ now.takeover = was.takeover ∧ now.library = was.library ∧
      now.audioOut = was.audioOut ∧ now.clips = was.clips ∧ now.tickOn = true ∧
      (∀ c, c ≠ .chime → t.chain c = s.chain c) ∧
      (∀ c a, c ≠ .chime → t.hold? c a = s.hold? c a) ∧
      t = { s with chime := now, chains := t.chains, holds := t.holds, mem := t.mem, freeIx := t.freeIx,
                   regs := { s.regs with notice := t.regs.notice } } ∧
      (∀ a, (∀ h ∈ s.holds, ¬ (h.addr ≤ a ∧ a < h.addr + 8)) →
        (∀ n ∈ s.chimeReached e, ¬ (n ≤ a ∧ a < n + 8)) → Mem.get t.mem a = Mem.get s.mem a))

/-- What becomes of a chime entry (sections 9.2 to 9.4). One that names no request, or a PLAY that names no class or no
usable pattern, is REJECTED. An URGENT PLAY goes to the tail of the alert queue, or is DROPPED when four are there. A CLICK
drops the waiting CLICK; a NOTICE goes ahead of every waiting CLICK, and into a full queue only by dropping a CLICK at its
end; a newcomer without room is DROPPED. A CANCEL takes every entry of its tag out of its queue, stops the voice that plays
one, and reports how many. At a sample event that ends a play its count grows: the entry ends DONE when its repeats are
reached, else its next play begins; the fault chime plays once. The premises for CANCEL say that the queues keep to their
classes (an invariant stated below), that only heads play and that no entry stands queued twice, which only a chain closed
on itself could bring about (Log 13). -/
def Obligations.ChimeEntriesArePlacedCancelledAndCompleted : Prop :=
  (∀ (s : State) (h : Handed ChimeBody) (last : Bool),
    let b := h.body
    let was := s.chime
    let t := s.dealChime h last
    let now := t.chime
    let usable := was.library.getD b.pattern none ≠ none
    let fresh : Hold := { Hold.fresh .chime h.addr with cursor := last }
    let queued : Hold := { fresh with client := true, waiting := true }
    let dropped : Hold := { fresh with verdict := some .dropped }
    let ended := fun (k : Hold) (v : EntryState) (n : Nat) =>
      k.verdict = some v ∧ k.count = n ∧ k.client = false ∧ k.waiting = false
    let q : QEntry :=
      { addr := h.addr, cls := b.cls.getD .click, pattern := b.pattern, repeats := b.repeats, resumable := b.resumable,
        duck := b.duck, tag := b.tag, plays := 0, playing := false }
    let bumped := fun n : Nat => min (n + 1) 65535
    (b.request ≠ 0 ∧ b.request ≠ 1 ∨ b.request = 0 ∧ (b.cls = none ∨ ¬ usable) →
      now = { was with rejected := bumped was.rejected } ∧
      t.hold? .chime h.addr = some { fresh with verdict := some .rejected }) ∧
    (b.request = 0 → usable → b.cls = some .urgent →
      (was.alertQ.length < 4 → now = { was with alertQ := was.alertQ ++ [q] } ∧ t.hold? .chime h.addr = some queued) ∧
      (4 ≤ was.alertQ.length → now = { was with dropped := bumped was.dropped } ∧
        t.hold? .chime h.addr = some dropped)) ∧
    (b.request = 0 → usable → b.cls = some .click → (∀ x ∈ was.uiQ, x.addr ≠ h.addr) →
      (was.uiQ.find? QEntry.waitingClick = none →
        (was.uiQ.length < 8 → now = { was with uiQ := was.uiQ ++ [q] } ∧ t.hold? .chime h.addr = some queued) ∧
        (8 ≤ was.uiQ.length → now = { was with dropped := bumped was.dropped } ∧
          t.hold? .chime h.addr = some dropped)) ∧
      (∀ old, was.uiQ.find? QEntry.waitingClick = some old → was.uiQ.length ≤ 8 →
        now = { was with uiQ := was.uiQ.filter (fun x => x.addr != old.addr) ++ [q], dropped := bumped was.dropped } ∧
        t.hold? .chime h.addr = some queued ∧
        ∀ k, t.hold? .chime old.addr = some k → ended k .dropped old.plays)) ∧
    (b.request = 0 → usable → b.cls = some .notice → (∀ x ∈ was.uiQ, x.addr ≠ h.addr) →
      let put := fun l : List QEntry =>
        l.filter (fun x => !x.waitingClick) ++ [q] ++ l.filter QEntry.waitingClick
      (was.uiQ.length < 8 → now = { was with uiQ := put was.uiQ } ∧ t.hold? .chime h.addr = some queued) ∧
      (∀ l, 8 ≤ was.uiQ.length → was.uiQ.getLast? = some l →
        (l.waitingClick = true →
          now = { was with uiQ := put was.uiQ.dropLast, dropped := bumped was.dropped } ∧
          t.hold? .chime h.addr = some queued ∧
          ∀ k, t.hold? .chime l.addr = some k → ended k .dropped l.plays) ∧
        (l.waitingClick = false → now = { was with dropped := bumped was.dropped } ∧
          t.hold? .chime h.addr = some dropped))) ∧
    (b.request = 1 → s.ChimesOk → ((was.alertQ ++ was.uiQ).map (·.addr)).Nodup →
      (∀ x ∈ was.alertQ.tail ++ was.uiQ.tail, x.playing = false) → (∀ x ∈ was.alertQ ++ was.uiQ, x.addr ≠ h.addr) →
      let named := (was.alertQ ++ was.uiQ).filter (fun x => x.tag == b.tag)
      let stops := fun l : List QEntry => match l.head? with
        | some x => x.playing && x.tag == b.tag
        | none => false
      let quiet := fun (v : Voice) (duck : Bool) => ({ play := none, note := none, fade := v.handover duck } : Voice)
      now = { was with
        alertQ := was.alertQ.filter (fun x => x.tag != b.tag), uiQ := was.uiQ.filter (fun x => x.tag != b.tag)
        alert := if stops was.alertQ then quiet was.alert false else was.alert
        ui := if stops was.uiQ then quiet was.ui (was.uiQ.any (fun x => x.playing && x.duck)) else was.ui
        cancelled := if named = [] then was.cancelled else min (was.cancelled + named.length) 65535 } ∧
      t.hold? .chime h.addr = some { fresh with used := true, verdict := some .done, count := named.length } ∧
      ∀ x ∈ named, ∀ k, t.hold? .chime x.addr = some k → ended k .cancelled x.plays)) ∧
  (∀ (s : State) (p : Play), s.runState = .run → ∃ t, exec .audioSampleEvent s = .next t ∧
    let done := fun (a n : Nat) => ∀ k, t.hold? .chime a = some k →
      k.verdict = some .done ∧ k.count = n ∧ k.client = false ∧ k.waiting = false
    let again : Play := { p with idx := (openingNote p.pattern).1 }
    (s.chime.alert.sample.2.2 = false → t.chime.alertQ = s.chime.alertQ) ∧
    (s.chime.ui.sample.2.2 = false → t.chime.uiQ = s.chime.uiQ) ∧
    (s.chime.alert.sample.2.2 = true → s.chime.alert.play = some p → p.source = .fault →
      t.chime.alert.play = none ∧ t.chime.alert.note = none ∧ t.chime.alertQ = s.chime.alertQ) ∧
    (∀ q rest, s.chime.alert.sample.2.2 = true → s.chime.alert.play = some p → p.source = .entry q.addr →
      s.chime.alertQ = q :: rest → (∀ x ∈ rest ++ s.chime.uiQ, x.addr ≠ q.addr) →
      let n := min (q.plays + 1) 65535
      (q.repeats ≠ 0 ∧ q.repeats ≤ n →
        t.chime.alertQ = rest ∧ t.chime.alert.play = none ∧ t.chime.alert.note = none ∧ done q.addr n) ∧
      (q.repeats = 0 ∨ n < q.repeats → t.chime.alertQ = { q with plays := n } :: rest ∧
        t.chime.alert.play = some again ∧ t.chime.alert.note = some (openingNote p.pattern).2)) ∧
    (∀ q rest, s.chime.ui.sample.2.2 = true → s.chime.ui.play = some p → p.source = .entry q.addr →
      s.chime.uiQ = q :: rest → (∀ x ∈ rest ++ s.chime.alertQ, x.addr ≠ q.addr) →
      let n := min (q.plays + 1) 65535
      (q.repeats ≠ 0 ∧ q.repeats ≤ n →
        t.chime.uiQ = rest ∧ t.chime.ui.play = none ∧ t.chime.ui.note = none ∧ done q.addr n) ∧
      (q.repeats = 0 ∨ n < q.repeats → t.chime.uiQ = { q with plays := n } :: rest ∧
        t.chime.ui.play = some again ∧ t.chime.ui.note = some (openingNote p.pattern).2)))

/-- AUDIO_SAMPLE_EVENT and DUCK_TIMER_EXPIRY (sections 9.4, 9.6 and 9.7): in RUN the audio port sends the two voices'
samples summed, the UI's divided by 4 while a cadence note sounds, saturated to 16 bits, and the clip counter counts once a
tick interval; outside RUN it sends zero. A voice's sample is its handover release's, else its note's, else 0: the wave
value of the phase by SQUARE or TRIANGLE, times floor(level × 96 × e / 4096), over 32768, with the envelope e of attack,
hold, release and the 240 events of a handover; the phase is 0 at a note's first sample and grows by the frequency × 2^32 /
48,000, rounded. A note of a pattern has its stages at 48 events a millisecond, those of no length left out; that a release
starts from 4096 after an attack and a hold of no length is the model's choice (Log 48). A note that ends is followed by the
next of its pattern that lasts, and the last of them completes its play. Only the chime engine, notices and the headers of
held entries change. A running duck timer that expires releases the line and changes nothing else; that the expiry event of
a stopped one changes nothing is the model's choice (Log 3), and so is when in a tick interval the clip counter grows (Log
38). -/
def Obligations.SampleEventsMixTheVoices : Prop :=
  ∀ s : State,
    (s.runState ≠ .run → exec .audioSampleEvent s = .next { s with chime := { s.chime with audioOut := 0 } }) ∧
    (s.runState = .run → ∃ t, exec .audioSampleEvent s = .next t ∧
      let ui := s.chime.ui.sample.1
      let sum := s.chime.alert.sample.1 + (if s.chime.alert.cadenceSounds then ui / 4 else ui)
      t.chime.audioOut = clampInt (-32768) 32767 sum ∧
      (-32768 ≤ sum → sum ≤ 32767 → t.chime.audioOut = sum ∧ t.chime.clips = s.chime.clips) ∧
      (sum < -32768 ∨ 32767 < sum → t.chime.clipped = true ∧
        t.chime.clips = (if s.chime.clipped then s.chime.clips else min (s.chime.clips + 1) 65535)) ∧
      t.chime.cad = s.chime.cad ∧ t.chime.zone = s.chime.zone ∧ t.chime.takeover = s.chime.takeover ∧
      t.chime.library = s.chime.library ∧ t.chime.tickOn = s.chime.tickOn ∧ t.chime.dropped = s.chime.dropped ∧
      t.regs = { s.regs with notice := t.regs.notice } ∧
      t = { s with chime := t.chime, regs := t.regs, holds := t.holds, mem := t.mem } ∧
      (∀ a, (∀ h ∈ s.holds, ¬ (h.addr ≤ a ∧ a < h.addr + 8)) → Mem.get t.mem a = Mem.get s.mem a)) ∧
    (s.chime.duckTimer = none → exec .duckTimerExpiry s = .next s) ∧
    (s.chime.duckTimer ≠ none → exec .duckTimerExpiry s = .next { s with
      chime := { s.chime with duck := false, duckTimer := none } }) ∧
    (let wave := fun (t : Tone) (phase : Word) => (match t.wave with
       | .square => if phase.toNat / 2 ^ 24 < (if t.duty = 0 then 128 else t.duty) then 32767 else -32768
       | .triangle => if phase.toNat / 2 ^ 16 < 32768 then 2 * (phase.toNat / 2 ^ 16 : Nat) - 32768
         else 98303 - 2 * (phase.toNat / 2 ^ 16 : Nat) : Int)
     let sounds := fun (t : Tone) (phase : Word) (env : Nat) => wave t phase * (t.level * 96 * env / 4096 : Nat) / 32768
     let envelope := fun (g : Seg) (k : Nat) => (match g with
       | .attack e0 len => e0 + (4096 - e0) * k / len
       | .hold _ => 4096
       | .sustain => 4096
       | .release e0 len => e0 * (len - k) / len
       | .silence _ => 0 : Nat)
     let length := fun g : Seg => (match g with
       | .attack _ len => some len
       | .hold len => some len
       | .sustain => none
       | .release _ len => some len
       | .silence len => some len : Option Nat)
     (∀ f : Nat, 96000 * phaseStep f ≤ 2 * (f * 2 ^ 32) + 48000 ∧ 2 * (f * 2 ^ 32) < 96000 * phaseStep f + 48000) ∧
     (∀ (n : Note) (g : Seg) (rest : List Seg), n.segs = g :: rest →
       let k := n.pos + 1
       let after := n.sample.2
       (∀ len, g = .silence len → n.sample.1 = 0 ∧ after.phase = n.phase) ∧
       ((∀ len, g ≠ .silence len) → n.sample.1 = sounds n.tone n.phase (envelope g k) ∧
         after.phase = n.phase + BitVec.ofNat 32 (phaseStep n.tone.freq)) ∧
       after.env = envelope g k ∧ after.tone = n.tone ∧
       (∀ len, length g = some len → k < len → after.segs = n.segs ∧ after.pos = k) ∧
       (∀ len, length g = some len → len ≤ k → after.segs = rest ∧ after.pos = 0) ∧
       (length g = none → after.segs = n.segs)) ∧
     (∀ p : PatternNote, (startNote p).phase = 0 ∧ (startNote p).pos = 0 ∧
       (startNote p).tone = { freq := p.freq, wave := p.wave, duty := p.duty, level := p.level } ∧
       (startNote p).segs = (if p.freq = 0 then [.silence (48 * p.hold), .silence (48 * p.gap)]
         else [.attack 0 (48 * p.attack), .hold (48 * p.hold), .release 4096 (48 * p.release), .silence (48 * p.gap)]).filter
           (fun g => decide (length g ≠ some 0))) ∧
     (∀ f : Fade, f.sample.1 = sounds f.tone f.phase (f.e0 * (240 - (f.m + 1)) / 240) ∧
       (f.m < 239 → f.sample.2 = some { f with
         m := f.m + 1, phase := f.phase + BitVec.ofNat 32 (phaseStep f.tone.freq) }) ∧
       (239 ≤ f.m → f.sample.2 = none)) ∧
     (∀ v : Voice,
       (∀ f, v.fade = some f → v.sample = (f.sample.1, { v with fade := f.sample.2 }, false)) ∧
       (∀ n, v.fade = none → v.note = some n → v.sample.1 = n.sample.1 ∧
         (n.sample.2.segs ≠ [] → v.sample.2 = ({ v with note := some n.sample.2 }, false)) ∧
         (n.sample.2.segs = [] → v.play = none → v.sample.2 = ({ v with note := none }, false)) ∧
         (∀ p, n.sample.2.segs = [] → v.play = some p →
           let later := p.pattern.drop (p.idx + 1)
           ((∀ m ∈ later, (startNote m).segs = []) → v.sample.2 = ({ v with note := none }, true)) ∧
           (∀ k m, later[k]? = some m → (startNote m).segs ≠ [] → (∀ x ∈ later.take k, (startNote x).segs = []) →
             v.sample.2 = ({ v with play := some { p with idx := p.idx + 1 + k }, note := some (startNote m) }, false)))) ∧
       (v.fade = none → v.note = none → v.sample = (0, v, false))))

/-! ## Rules of the whole machine -/

/-- The copies of the book (section 1.1): between a completed start and the next start or reset no command changes the
settings, the chime library, the guide table or the guide state, and only START takes a new book address and copies the book
(that it copies then is the model's choice, Log 40); BOOKADDR, the mask, the interrupt enable and the start fields change
only at the host's writes, a start's outcome and resets. Only the host clears a notice (section 10.2): a flag that is set
stays set through every command but a write to NOTICE or one that may reset the part. -/
def Obligations.CopiesAndNoticesChangeOnlyAsStated : Prop :=
  ∀ (c : Instr) (s t : State), c.mayReset = false → exec c s = .next t →
    ((∀ e, c ≠ .startCompleted e) → t.settings = s.settings ∧ t.chime.library = s.chime.library ∧
      t.guide.table = s.guide.table ∧ t.guide.state = s.guide.state ∧ t.guide.reason = s.guide.reason ∧
      (c ≠ .start → t.book = s.book ∧ t.bookCopy = s.bookCopy ∧ ((∀ e, c ≠ .startRefused e) → t.regs.startResult = s.regs.startResult ∧
        t.regs.startDetail = s.regs.startDetail ∧ t.regs.guideRejected = s.regs.guideRejected))) ∧
    ((∀ w, c ≠ .bookaddrWrite w) → t.regs.bookAddr = s.regs.bookAddr) ∧
    ((∀ v, c ≠ .noticeMaskWrite v) → t.regs.noticeMask = s.regs.noticeMask) ∧
    ((∀ v, c ≠ .irqEnable v) → t.regs.irqEnable = s.regs.irqEnable) ∧
    ((∀ v, c ≠ .noticeClear v) → ∀ k, s.regs.notice.getLsbD k = true → t.regs.notice.getLsbD k = true)

/-- In OFF and STARTING the part writes no memory (sections 0.6 and 10.3), but for the first status page update of a
completed start. The premises are invariants stated below. -/
def Obligations.NoMemoryIsWrittenInOffAndStarting : Prop :=
  ∀ (c : Instr) (s t : State), s.runState = .off ∨ s.runState = .starting → s.TakeoverOk → s.CaptureOk → s.StatusOk →
    (∀ e, c ≠ .startCompleted e) → exec c s = .next t → t.mem = s.mem

/-! ## Invariants of every step -/

/-- Host memory keeps its one canonical form: addresses rising and below 2^64, no zero byte listed (the form of the
model's memory, Log 1). -/
def Obligations.StepKeepsMemoryCanonical : Prop :=
  ∀ s t : State, Mem.wf s.mem = true → step s = .next t → Mem.wf t.mem = true

/-- An EMPTY chain has no cursor and a RUNNING chain has one (section 1.3), and the entry a chain's cursor stands on is
held and bears its mark (sections 1.2, 1.3 and 1.6). The status word last written of an entry held is the one its holds
call for (section 1.6). Every entry held lies on a multiple of 16 below 2^64 (section 1.5; the premise is an invariant
stated below). Each film stream's fine counter, balance and interval stay in range, it shows a frame exactly in the
states that show one, its clock is 0 without one, and its last valid pts is the shown frame's (sections 4.2 to 4.6). -/
def Obligations.StepKeepsChainsAndStreamsConsistent : Prop :=
  (∀ s t : State, s.ChainsOk → step s = .next t → t.ChainsOk) ∧
  (∀ s t : State, s.CursorsHeld → step s = .next t → t.CursorsHeld) ∧
  (∀ s t : State, s.SettingsOk → s.HoldsPlaced → step s = .next t → t.HoldsPlaced) ∧
  (∀ s t : State, s.HoldsWritten → step s = .next t → t.HoldsWritten) ∧
  (∀ s t : State, s.StreamsOk → step s = .next t → t.StreamsOk)

/-- The receive buffer holds at most 16 bytes, every value of the vehicle record lies in its range, each distance from 1
to 65,535 once a RANGE message has been accepted, a stale kind's timer
is stopped and the motion state is UNKNOWN while SPEED is stale (sections 6.3 and 6.5). -/
def Obligations.StepKeepsTheVehicleRecordInRange : Prop :=
  ∀ s t : State, s.VehicleOk → step s = .next t → t.VehicleOk

/-- The reverse decision is always the one the reverse source forms (section 7.3); the takeover state is NORMAL outside RUN,
a pending standby stands only in ACTIVE with CTRL.STANDBY set, and the linger timer runs exactly in LINGER (section 7.4).
The chime engine was last handed the takeover state and the parking zone that stand (sections 7.4 and 8.5). -/
def Obligations.StepKeepsReverseAndTakeoverConsistent : Prop :=
  (∀ s t : State, s.ReverseOk → step s = .next t → t.ReverseOk) ∧
  (∀ s t : State, s.TakeoverOk → step s = .next t → t.TakeoverOk) ∧
  (∀ s t : State, s.HandedOk → step s = .next t → t.HandedOk)

/-- Capture is enabled only in RUN and throughout takeover; exactly while it is enabled there are a view status, one
CAPTURING buffer and a counted load; the start limit timer runs exactly in WAIT, the silence timer exactly while the
silent mark is clear; at most one buffer is SHOWN (sections 2.6 and 7.6 to 7.8). -/
def Obligations.StepKeepsCaptureConsistent : Prop :=
  ∀ s t : State, s.TakeoverOk → s.CaptureOk → step s = .next t → t.CaptureOk

/-- While the motion state is MOVING or UNKNOWN a centre refresh that shows the host's plan covers its restricted layers
(section 3.5); a refresh of the takeover picture has no mark to set, by the model's choice (Log 59), and is left out
here. A shed mask names only layers of the current plan of nonzero shed rank, and none in takeover (section 2.6). -/
def Obligations.StepKeepsCoversAndShedMasks : Prop :=
  (∀ s t : State, s.CoverOk → step s = .next t → t.CoverOk) ∧
  (∀ s t : State, s.ShedOk → step s = .next t → t.ShedOk)

/-- The chime queues keep to their lengths and classes with at most one waiting CLICK, the audio word to 16 bits
(sections 9.3 and 9.6), and the duck line is asserted exactly while its condition holds or its timer runs
(section 9.7). -/
def Obligations.StepKeepsChimesConsistent : Prop :=
  (∀ s t : State, s.ChimesOk → step s = .next t → t.ChimesOk) ∧
  (∀ s t : State, s.DuckOk → step s = .next t → t.DuckOk)

/-- The status writer: its timer runs in RUN, STANDBY and STOPPING, an update is under way only there and never while
FROZEN, and a freeze request waits only for one (section 10.5). Unassigned notice and mask bits read 0 and a start detail
stands only with BAD_SETTINGS and is an index of Table 11-2 (sections 10.1, 11.1 and 11.2). In RUN, STANDBY and STOPPING
every setting of Tables 2-1, 6-1, 7-1, 8-2 and 9-2, the nudge rate and the blink period lie in their ranges (sections 2.1,
4.4, 5.4, 6.1, 7.1, 8.1, 9.1 and 10.3). -/
def Obligations.StepKeepsStatusRegistersAndSettingsLegal : Prop :=
  (∀ s t : State, s.StatusOk → step s = .next t → t.StatusOk) ∧
  (∀ s t : State, s.RegsOk → step s = .next t → t.RegsOk) ∧
  (∀ s t : State, s.SettingsOk → step s = .next t → t.SettingsOk)

/-- The state after reset meets every invariant above. -/
def Obligations.ResetMeetsEveryInvariant : Prop :=
  Mem.wf State.reset.mem = true ∧ State.reset.ChainsOk ∧ State.reset.CursorsHeld ∧ State.reset.HoldsPlaced ∧ State.reset.HoldsWritten ∧
  State.reset.StreamsOk ∧ State.reset.VehicleOk ∧ State.reset.ReverseOk ∧ State.reset.TakeoverOk ∧ State.reset.HandedOk ∧
  State.reset.CaptureOk ∧ State.reset.CoverOk ∧ State.reset.ChimesOk ∧ State.reset.DuckOk ∧ State.reset.StatusOk ∧ State.reset.ShedOk ∧ State.reset.RegsOk ∧ State.reset.SettingsOk
end

