-- ==== Sys2Proof/Laws/Shape.lean ====
section
/-! SUPPORT. What the chain unit's operations can change: one lemma for each operation says which fields of the state
it may write, all others standing as they are. -/

namespace Sys2Proof.Machine

/-- `s` with other entries in memory, other hold records and other notices. -/
def State.entries (s : State) (m : Mem) (h : List Hold) (n : Word) : State :=
  { s with mem := m, holds := h, regs := { s.regs with notice := n } }

/-- `t` differs from `s` in memory, hold records and notices alone. -/
def Entries (s t : State) : Prop := ∃ m h n, t = s.entries m h n

theorem Entries.refl (s : State) : Entries s s := ⟨s.mem, s.holds, s.regs.notice, rfl⟩

theorem Entries.trans {s t u : State} (h1 : Entries s t) (h2 : Entries t u) : Entries s u := by
  obtain ⟨m, h, n, rfl⟩ := h1
  obtain ⟨m', h', n', rfl⟩ := h2
  exact ⟨m', h', n', rfl⟩

theorem Entries.foldl {α : Type} {f : State → α → State} (hf : ∀ s x, Entries s (f s x)) (s : State) (l : List α) :
    Entries s (l.foldl f s) := by
  induction l generalizing s with
  | nil => exact Entries.refl s
  | cons x t ih => exact (hf s x).trans (ih _)

theorem entries_ite {s x y : State} {c : Prop} [Decidable c] (hx : Entries s x) (hy : Entries s y) :
    Entries s (if c then x else y) := by
  split
  · exact hx
  · exact hy

theorem entries_raise (s : State) (n : Notice) : Entries s (s.raise n) := ⟨_, _, _, rfl⟩

theorem entries_raiseIf (s : State) (c : Bool) (n : Notice) : Entries s (s.raiseIf c n) :=
  entries_ite (entries_raise s n) (Entries.refl s)

theorem entries_putHold (s : State) (h : Hold) : Entries s (s.putHold h) := ⟨_, _, _, rfl⟩

theorem entries_dropHold (s : State) (c : ChainId) (a : Nat) : Entries s (s.dropHold c a) := ⟨_, _, _, rfl⟩

theorem entries_modHold (s : State) (c : ChainId) (a : Nat) (f : Hold → Hold) : Entries s (s.modHold c a f) := by
  unfold State.modHold
  split
  · exact entries_putHold _ _
  · exact Entries.refl s

theorem entries_retire (s : State) (h : Hold) : Entries s (s.retire h) := ⟨_, _, _, rfl⟩

theorem entries_syncHold (s : State) (h : Hold) : Entries s (s.syncHold h) :=
  entries_ite (Entries.refl s) ⟨_, _, _, rfl⟩

theorem entries_settle (s : State) (c : ChainId) (a : Nat) : Entries s (s.settle c a) := by
  unfold State.settle
  split
  · exact entries_ite (entries_retire _ _) (entries_syncHold _ _)
  · exact Entries.refl s

theorem entries_endClient (s : State) (c : ChainId) (a : Nat) : Entries s (s.endClient c a) :=
  (entries_modHold _ _ _ _).trans (entries_settle _ _ _)

theorem entries_endCursor (s : State) (c : ChainId) : Entries s (s.endCursor c) := by
  unfold State.endCursor
  split
  · exact (entries_modHold _ _ _ _).trans (entries_settle _ _ _)
  · exact Entries.refl s

theorem entries_settleChime (s : State) (a : Nat) : Entries s (s.settleChime a) := by
  unfold State.settleChime
  split
  · exact entries_ite (entries_settle _ _ _) (Entries.refl s)
  · exact Entries.refl s

theorem entries_endChime (s : State) (a : Nat) (v : EntryState) (k : Nat) : Entries s (s.endChime a v k) :=
  (entries_modHold _ _ _ _).trans (entries_settleChime _ _)

theorem entries_beginEntry (s : State) (a : Nat) : Entries s (s.beginEntry a) :=
  (entries_modHold _ _ _ _).trans (entries_settle _ _ _)

theorem entries_endPlan (s : State) (i : ScreenId) : Entries s (s.endPlan i) := by
  unfold State.endPlan
  split
  · exact (entries_modHold _ _ _ _).trans (entries_endClient _ _ _)
  · exact Entries.refl s

theorem entries_endShown (s : State) (x : StreamId) : Entries s (s.endShown x) := by
  unfold State.endShown
  split
  · exact entries_endClient _ _ _
  · exact Entries.refl s

theorem entries_recordShed (s : State) (i : ScreenId) (m : BitVec 6) : Entries s (s.recordShed i m) := by
  unfold State.recordShed
  split
  · exact Entries.refl s
  · exact (entries_modHold _ _ _ _).trans (entries_settle _ _ _)

theorem entries_setRefs (s : State) (i : ScreenId) (f : Hold → Bool) : Entries s (s.setRefs i f) :=
  Entries.trans ⟨_, _, _, rfl⟩ (Entries.foldl (fun s (h : Hold) => entries_settle s h.chain h.addr) _ _)

theorem entries_countPlan (s : State) (i : ScreenId) : Entries s (s.countPlan i) := by
  unfold State.countPlan
  simp only
  split
  · exact entries_ite (Entries.refl s) (entries_modHold _ _ _ _)
  · exact Entries.refl s

theorem entries_countShown (s : State) (x : StreamId) : Entries s (s.countShown x) := by
  unfold State.countShown
  split
  · exact entries_modHold _ _ _ _
  · exact Entries.refl s

/-! ## The chime engine leaving RUN -/

theorem entries_chimeStandby (s : State) : Entries (s.modChime Chime.silence) s.chimeStandby :=
  Entries.foldl (fun s (q : QEntry) => entries_endChime s q.addr .released q.plays) _ _

theorem entries_chimeStop (s : State) : Entries (s.modChime Chime.silence) s.chimeStop :=
  Entries.foldl (fun s (q : QEntry) => entries_modHold s .chime q.addr _) _ _

/-! ## Operations that also change a chain's record -/

/-- `t` differs from `s` in memory, hold records, notices, the count of free values and the record of chain `c`. -/
def Chained (c : ChainId) (s t : State) : Prop :=
  ∃ m h n f v, t = State.setChain { s.entries m h n with freeIx := f } c v

theorem chain_setChain (s : State) (c : ChainId) (v : Chain) : (s.setChain c v).chain c = v := by
  rcases c with i | x | _
  · cases i <;> rfl
  · cases x <;> rfl
  · rfl

theorem setChain_chain (s : State) (c : ChainId) : s.setChain c (s.chain c) = s := by
  rcases c with i | x | _
  · cases i <;> rfl
  · cases x <;> rfl
  · rfl

theorem setChain_setChain (s : State) (c : ChainId) (v w : Chain) : (s.setChain c v).setChain c w = s.setChain c w := by
  rcases c with i | x | _
  · cases i <;> rfl
  · cases x <;> rfl
  · rfl

theorem Chained.of_entries {s t : State} (c : ChainId) (h : Entries s t) : Chained c s t := by
  obtain ⟨m, k, n, rfl⟩ := h
  exact ⟨m, k, n, s.freeIx, s.chain c, (setChain_chain (s.entries m k n) c).symm⟩

theorem Chained.refl (c : ChainId) (s : State) : Chained c s s := Chained.of_entries c (Entries.refl s)

theorem Chained.set (c : ChainId) (s : State) (v : Chain) : Chained c s (s.setChain c v) :=
  ⟨s.mem, s.holds, s.regs.notice, s.freeIx, v, rfl⟩

theorem Chained.lost (c : ChainId) (s : State) (m : Mem) (f : Nat) : Chained c s { s with mem := m, freeIx := f } :=
  ⟨m, s.holds, s.regs.notice, f, s.chain c, (setChain_chain { s with mem := m, freeIx := f } c).symm⟩

theorem Chained.trans {c : ChainId} {s t u : State} (h1 : Chained c s t) (h2 : Chained c t u) : Chained c s u := by
  obtain ⟨m, h, n, f, v, rfl⟩ := h1
  obtain ⟨m', h', n', f', v', rfl⟩ := h2
  refine ⟨m', h', n', f', v', ?_⟩
  rcases c with i | x | _
  · cases i <;> rfl
  · cases x <;> rfl
  · rfl

theorem chained_ite {c : ChainId} {s x y : State} {p : Prop} [Decidable p] (hx : Chained c s x) (hy : Chained c s y) :
    Chained c s (if p then x else y) := by
  split
  · exact hx
  · exact hy

theorem chained_faultChain (s : State) (c : ChainId) (k : FaultCause) (a : Nat) : Chained c s (s.faultChain c k a) :=
  chained_ite (Chained.set _ _ _) ((Chained.set _ _ _).trans (Chained.of_entries c (entries_raise _ _)))

theorem chained_rootReadError (s : State) (c : ChainId) : Chained c s (s.rootReadError c) :=
  (Chained.set _ _ _).trans (Chained.of_entries c (entries_raise _ _))

theorem chained_statusWriteFailed (s : State) (c : ChainId) (a : Nat) : Chained c s (s.statusWriteFailed c a) :=
  (Chained.set _ _ _).trans (chained_faultChain _ _ _ _)

theorem chained_abandon (s : State) (c : ChainId) : Chained c s (s.abandon c) :=
  (Chained.of_entries c (entries_endCursor s c)).trans (Chained.set _ _ _)

theorem chained_moveCursor (s : State) (c : ChainId) (as : List Nat) : Chained c s (s.moveCursor c as) := by
  unfold State.moveCursor
  split
  · exact Chained.refl c s
  · exact (Chained.of_entries c ((entries_endCursor s c).trans
      (Entries.foldl (fun s (a : Nat) => entries_settle s c a) _ _))).trans (Chained.set _ _ _)

theorem chained_consume (s : State) (c : ChainId) (hs : List Hold) : Chained c s (s.consume c hs) :=
  (Chained.of_entries c (Entries.foldl entries_putHold s (markLast hs))).trans (chained_moveCursor _ _ _)

theorem chained_faultWord (s : State) (c : ChainId) (a : Nat) (v : Word) (bad : Bool) :
    Chained c s (s.faultWord c a v bad) := by
  unfold State.faultWord
  split
  · exact (Chained.lost c s _ _).trans (Chained.set _ _ _)
  · exact Chained.of_entries c ⟨_, _, _, rfl⟩

theorem chained_writeFault (s : State) (c : ChainId) (e : LinkErrs) (a : Nat) : Chained c s (s.writeFault c e a) :=
  ((chained_faultWord _ _ _ _ _).trans (chained_faultWord _ _ _ _ _)).trans (Chained.of_entries c (entries_raiseIf _ _ _))

theorem chained_faultEntry (s : State) (c : ChainId) (e : LinkErrs) (a : Nat) (f : EntryFault) :
    Chained c s (s.faultEntry c e a f) :=
  (chained_ite (chained_writeFault _ _ _ _) (Chained.refl c s)).trans (chained_faultChain _ _ _ _)

theorem chained_checkSerial (s : State) (c : ChainId) (e : LinkErrs) : Chained c s (s.checkSerial c e).2 := by
  unfold State.checkSerial
  simp only
  split
  · exact chained_rootReadError s c
  · split
    · exact Chained.refl c s
    · exact (chained_abandon s c).trans (Chained.set _ _ _)

theorem chained_startLink (s : State) (c : ChainId) (e : LinkErrs) : Chained c s (s.startLink c e).2 := by
  unfold State.startLink
  simp only
  split
  · exact Chained.refl c s
  · split
    · split
      · exact chained_faultChain _ _ _ _
      · exact Chained.refl c s
    · split
      · exact chained_rootReadError s c
      · exact Chained.refl c s

theorem chained_runWalk {β : Type} (s : State) (rd : Reader β) (c : ChainId) (e : LinkErrs) (l : Option Nat) :
    Chained c s (s.runWalk rd c e l).2.2 := by
  unfold State.runWalk
  simp only
  split
  · exact chained_faultEntry _ _ _ _ _
  · exact Chained.refl c s
  · exact Chained.refl c s

theorem chained_pollWalk {β : Type} (s : State) (rd : Reader β) (c : ChainId) (e : LinkErrs) :
    Chained c s (s.pollWalk rd c e).2.2 := by
  unfold State.pollWalk
  simp only
  split
  · exact chained_startLink s c e
  · exact (chained_startLink s c e).trans (chained_runWalk _ _ _ _ _)

end Sys2Proof.Machine
end

