-- ==== Sys2Proof/Laws/State.lean ====
section
/-! SUPPORT. One lemma for each field of each update of the state, so that no later proof unfolds an update. -/

namespace Sys2Proof.Machine

/-! ## `State.modScreen` -/

section
variable (s : State) (i : ScreenId) (f : Screen → Screen)

@[simp] theorem State.modScreen_pending : (s.modScreen i f).pending = s.pending := rfl
@[simp] theorem State.modScreen_regs : (s.modScreen i f).regs = s.regs := rfl
@[simp] theorem State.modScreen_runState : (s.modScreen i f).runState = s.runState := rfl
@[simp] theorem State.modScreen_book : (s.modScreen i f).book = s.book := rfl
@[simp] theorem State.modScreen_settings : (s.modScreen i f).settings = s.settings := rfl
@[simp] theorem State.modScreen_bookCopy : (s.modScreen i f).bookCopy = s.bookCopy := rfl
@[simp] theorem State.modScreen_mem : (s.modScreen i f).mem = s.mem := rfl
@[simp] theorem State.modScreen_chains : (s.modScreen i f).chains = s.chains := rfl
@[simp] theorem State.modScreen_holds : (s.modScreen i f).holds = s.holds := rfl
@[simp] theorem State.modScreen_capLoad : (s.modScreen i f).capLoad = s.capLoad := rfl
@[simp] theorem State.modScreen_blinkOn : (s.modScreen i f).blinkOn = s.blinkOn := rfl
@[simp] theorem State.modScreen_blinkRunning : (s.modScreen i f).blinkRunning = s.blinkRunning := rfl
@[simp] theorem State.modScreen_streams : (s.modScreen i f).streams = s.streams := rfl
@[simp] theorem State.modScreen_link : (s.modScreen i f).link = s.link := rfl
@[simp] theorem State.modScreen_vehicle : (s.modScreen i f).vehicle = s.vehicle := rfl
@[simp] theorem State.modScreen_linePin : (s.modScreen i f).linePin = s.linePin := rfl
@[simp] theorem State.modScreen_monitor : (s.modScreen i f).monitor = s.monitor := rfl
@[simp] theorem State.modScreen_takeover : (s.modScreen i f).takeover = s.takeover := rfl
@[simp] theorem State.modScreen_camera : (s.modScreen i f).camera = s.camera := rfl
@[simp] theorem State.modScreen_guide : (s.modScreen i f).guide = s.guide := rfl
@[simp] theorem State.modScreen_chime : (s.modScreen i f).chime = s.chime := rfl
@[simp] theorem State.modScreen_status : (s.modScreen i f).status = s.status := rfl
@[simp] theorem State.modScreen_freeIx : (s.modScreen i f).freeIx = s.freeIx := rfl
@[simp] theorem State.modScreen_screens : (s.modScreen i f).screens = s.screens.set i (f (s.screens.get i)) := rfl

end

/-! ## `State.modStream` -/

section
variable (s : State) (x : StreamId) (f : Stream → Stream)

@[simp] theorem State.modStream_pending : (s.modStream x f).pending = s.pending := rfl
@[simp] theorem State.modStream_regs : (s.modStream x f).regs = s.regs := rfl
@[simp] theorem State.modStream_runState : (s.modStream x f).runState = s.runState := rfl
@[simp] theorem State.modStream_book : (s.modStream x f).book = s.book := rfl
@[simp] theorem State.modStream_settings : (s.modStream x f).settings = s.settings := rfl
@[simp] theorem State.modStream_bookCopy : (s.modStream x f).bookCopy = s.bookCopy := rfl
@[simp] theorem State.modStream_mem : (s.modStream x f).mem = s.mem := rfl
@[simp] theorem State.modStream_chains : (s.modStream x f).chains = s.chains := rfl
@[simp] theorem State.modStream_holds : (s.modStream x f).holds = s.holds := rfl
@[simp] theorem State.modStream_screens : (s.modStream x f).screens = s.screens := rfl
@[simp] theorem State.modStream_capLoad : (s.modStream x f).capLoad = s.capLoad := rfl
@[simp] theorem State.modStream_blinkOn : (s.modStream x f).blinkOn = s.blinkOn := rfl
@[simp] theorem State.modStream_blinkRunning : (s.modStream x f).blinkRunning = s.blinkRunning := rfl
@[simp] theorem State.modStream_link : (s.modStream x f).link = s.link := rfl
@[simp] theorem State.modStream_vehicle : (s.modStream x f).vehicle = s.vehicle := rfl
@[simp] theorem State.modStream_linePin : (s.modStream x f).linePin = s.linePin := rfl
@[simp] theorem State.modStream_monitor : (s.modStream x f).monitor = s.monitor := rfl
@[simp] theorem State.modStream_takeover : (s.modStream x f).takeover = s.takeover := rfl
@[simp] theorem State.modStream_camera : (s.modStream x f).camera = s.camera := rfl
@[simp] theorem State.modStream_guide : (s.modStream x f).guide = s.guide := rfl
@[simp] theorem State.modStream_chime : (s.modStream x f).chime = s.chime := rfl
@[simp] theorem State.modStream_status : (s.modStream x f).status = s.status := rfl
@[simp] theorem State.modStream_freeIx : (s.modStream x f).freeIx = s.freeIx := rfl
@[simp] theorem State.modStream_streams : (s.modStream x f).streams = s.streams.set x (f (s.streams.get x)) := rfl

end

/-! ## `State.raise` -/

section
variable (s : State) (n : Notice)

@[simp] theorem State.raise_pending : (s.raise n).pending = s.pending := rfl
@[simp] theorem State.raise_runState : (s.raise n).runState = s.runState := rfl
@[simp] theorem State.raise_book : (s.raise n).book = s.book := rfl
@[simp] theorem State.raise_settings : (s.raise n).settings = s.settings := rfl
@[simp] theorem State.raise_bookCopy : (s.raise n).bookCopy = s.bookCopy := rfl
@[simp] theorem State.raise_mem : (s.raise n).mem = s.mem := rfl
@[simp] theorem State.raise_chains : (s.raise n).chains = s.chains := rfl
@[simp] theorem State.raise_holds : (s.raise n).holds = s.holds := rfl
@[simp] theorem State.raise_screens : (s.raise n).screens = s.screens := rfl
@[simp] theorem State.raise_capLoad : (s.raise n).capLoad = s.capLoad := rfl
@[simp] theorem State.raise_blinkOn : (s.raise n).blinkOn = s.blinkOn := rfl
@[simp] theorem State.raise_blinkRunning : (s.raise n).blinkRunning = s.blinkRunning := rfl
@[simp] theorem State.raise_streams : (s.raise n).streams = s.streams := rfl
@[simp] theorem State.raise_link : (s.raise n).link = s.link := rfl
@[simp] theorem State.raise_vehicle : (s.raise n).vehicle = s.vehicle := rfl
@[simp] theorem State.raise_linePin : (s.raise n).linePin = s.linePin := rfl
@[simp] theorem State.raise_monitor : (s.raise n).monitor = s.monitor := rfl
@[simp] theorem State.raise_takeover : (s.raise n).takeover = s.takeover := rfl
@[simp] theorem State.raise_camera : (s.raise n).camera = s.camera := rfl
@[simp] theorem State.raise_guide : (s.raise n).guide = s.guide := rfl
@[simp] theorem State.raise_chime : (s.raise n).chime = s.chime := rfl
@[simp] theorem State.raise_status : (s.raise n).status = s.status := rfl
@[simp] theorem State.raise_freeIx : (s.raise n).freeIx = s.freeIx := rfl
@[simp] theorem State.raise_regs : (s.raise n).regs = { s.regs with notice := s.regs.notice ||| BitVec.twoPow 32 n.bit } := rfl

end

/-! ## `State.raiseIf` -/

section
variable (s : State) (b : Bool) (n : Notice)

@[simp] theorem State.raiseIf_pending : (s.raiseIf b n).pending = s.pending := by cases b <;> rfl
@[simp] theorem State.raiseIf_runState : (s.raiseIf b n).runState = s.runState := by cases b <;> rfl
@[simp] theorem State.raiseIf_book : (s.raiseIf b n).book = s.book := by cases b <;> rfl
@[simp] theorem State.raiseIf_settings : (s.raiseIf b n).settings = s.settings := by cases b <;> rfl
@[simp] theorem State.raiseIf_bookCopy : (s.raiseIf b n).bookCopy = s.bookCopy := by cases b <;> rfl
@[simp] theorem State.raiseIf_mem : (s.raiseIf b n).mem = s.mem := by cases b <;> rfl
@[simp] theorem State.raiseIf_chains : (s.raiseIf b n).chains = s.chains := by cases b <;> rfl
@[simp] theorem State.raiseIf_holds : (s.raiseIf b n).holds = s.holds := by cases b <;> rfl
@[simp] theorem State.raiseIf_screens : (s.raiseIf b n).screens = s.screens := by cases b <;> rfl
@[simp] theorem State.raiseIf_capLoad : (s.raiseIf b n).capLoad = s.capLoad := by cases b <;> rfl
@[simp] theorem State.raiseIf_blinkOn : (s.raiseIf b n).blinkOn = s.blinkOn := by cases b <;> rfl
@[simp] theorem State.raiseIf_blinkRunning : (s.raiseIf b n).blinkRunning = s.blinkRunning := by cases b <;> rfl
@[simp] theorem State.raiseIf_streams : (s.raiseIf b n).streams = s.streams := by cases b <;> rfl
@[simp] theorem State.raiseIf_link : (s.raiseIf b n).link = s.link := by cases b <;> rfl
@[simp] theorem State.raiseIf_vehicle : (s.raiseIf b n).vehicle = s.vehicle := by cases b <;> rfl
@[simp] theorem State.raiseIf_linePin : (s.raiseIf b n).linePin = s.linePin := by cases b <;> rfl
@[simp] theorem State.raiseIf_monitor : (s.raiseIf b n).monitor = s.monitor := by cases b <;> rfl
@[simp] theorem State.raiseIf_takeover : (s.raiseIf b n).takeover = s.takeover := by cases b <;> rfl
@[simp] theorem State.raiseIf_camera : (s.raiseIf b n).camera = s.camera := by cases b <;> rfl
@[simp] theorem State.raiseIf_guide : (s.raiseIf b n).guide = s.guide := by cases b <;> rfl
@[simp] theorem State.raiseIf_chime : (s.raiseIf b n).chime = s.chime := by cases b <;> rfl
@[simp] theorem State.raiseIf_status : (s.raiseIf b n).status = s.status := by cases b <;> rfl
@[simp] theorem State.raiseIf_freeIx : (s.raiseIf b n).freeIx = s.freeIx := by cases b <;> rfl

end

/-! ## `State.setChain` -/

section
variable (s : State) (c : ChainId) (v : Chain)

@[simp] theorem State.setChain_pending : (s.setChain c v).pending = s.pending := by cases c <;> rfl
@[simp] theorem State.setChain_regs : (s.setChain c v).regs = s.regs := by cases c <;> rfl
@[simp] theorem State.setChain_runState : (s.setChain c v).runState = s.runState := by cases c <;> rfl
@[simp] theorem State.setChain_book : (s.setChain c v).book = s.book := by cases c <;> rfl
@[simp] theorem State.setChain_settings : (s.setChain c v).settings = s.settings := by cases c <;> rfl
@[simp] theorem State.setChain_bookCopy : (s.setChain c v).bookCopy = s.bookCopy := by cases c <;> rfl
@[simp] theorem State.setChain_mem : (s.setChain c v).mem = s.mem := by cases c <;> rfl
@[simp] theorem State.setChain_holds : (s.setChain c v).holds = s.holds := by cases c <;> rfl
@[simp] theorem State.setChain_screens : (s.setChain c v).screens = s.screens := by cases c <;> rfl
@[simp] theorem State.setChain_capLoad : (s.setChain c v).capLoad = s.capLoad := by cases c <;> rfl
@[simp] theorem State.setChain_blinkOn : (s.setChain c v).blinkOn = s.blinkOn := by cases c <;> rfl
@[simp] theorem State.setChain_blinkRunning : (s.setChain c v).blinkRunning = s.blinkRunning := by cases c <;> rfl
@[simp] theorem State.setChain_streams : (s.setChain c v).streams = s.streams := by cases c <;> rfl
@[simp] theorem State.setChain_link : (s.setChain c v).link = s.link := by cases c <;> rfl
@[simp] theorem State.setChain_vehicle : (s.setChain c v).vehicle = s.vehicle := by cases c <;> rfl
@[simp] theorem State.setChain_linePin : (s.setChain c v).linePin = s.linePin := by cases c <;> rfl
@[simp] theorem State.setChain_monitor : (s.setChain c v).monitor = s.monitor := by cases c <;> rfl
@[simp] theorem State.setChain_takeover : (s.setChain c v).takeover = s.takeover := by cases c <;> rfl
@[simp] theorem State.setChain_camera : (s.setChain c v).camera = s.camera := by cases c <;> rfl
@[simp] theorem State.setChain_guide : (s.setChain c v).guide = s.guide := by cases c <;> rfl
@[simp] theorem State.setChain_chime : (s.setChain c v).chime = s.chime := by cases c <;> rfl
@[simp] theorem State.setChain_status : (s.setChain c v).status = s.status := by cases c <;> rfl
@[simp] theorem State.setChain_freeIx : (s.setChain c v).freeIx = s.freeIx := by cases c <;> rfl

end

/-! ## `State.putHold` -/

section
variable (s : State) (h : Hold)

@[simp] theorem State.putHold_pending : (s.putHold h).pending = s.pending := rfl
@[simp] theorem State.putHold_regs : (s.putHold h).regs = s.regs := rfl
@[simp] theorem State.putHold_runState : (s.putHold h).runState = s.runState := rfl
@[simp] theorem State.putHold_book : (s.putHold h).book = s.book := rfl
@[simp] theorem State.putHold_settings : (s.putHold h).settings = s.settings := rfl
@[simp] theorem State.putHold_bookCopy : (s.putHold h).bookCopy = s.bookCopy := rfl
@[simp] theorem State.putHold_mem : (s.putHold h).mem = s.mem := rfl
@[simp] theorem State.putHold_chains : (s.putHold h).chains = s.chains := rfl
@[simp] theorem State.putHold_screens : (s.putHold h).screens = s.screens := rfl
@[simp] theorem State.putHold_capLoad : (s.putHold h).capLoad = s.capLoad := rfl
@[simp] theorem State.putHold_blinkOn : (s.putHold h).blinkOn = s.blinkOn := rfl
@[simp] theorem State.putHold_blinkRunning : (s.putHold h).blinkRunning = s.blinkRunning := rfl
@[simp] theorem State.putHold_streams : (s.putHold h).streams = s.streams := rfl
@[simp] theorem State.putHold_link : (s.putHold h).link = s.link := rfl
@[simp] theorem State.putHold_vehicle : (s.putHold h).vehicle = s.vehicle := rfl
@[simp] theorem State.putHold_linePin : (s.putHold h).linePin = s.linePin := rfl
@[simp] theorem State.putHold_monitor : (s.putHold h).monitor = s.monitor := rfl
@[simp] theorem State.putHold_takeover : (s.putHold h).takeover = s.takeover := rfl
@[simp] theorem State.putHold_camera : (s.putHold h).camera = s.camera := rfl
@[simp] theorem State.putHold_guide : (s.putHold h).guide = s.guide := rfl
@[simp] theorem State.putHold_chime : (s.putHold h).chime = s.chime := rfl
@[simp] theorem State.putHold_status : (s.putHold h).status = s.status := rfl
@[simp] theorem State.putHold_freeIx : (s.putHold h).freeIx = s.freeIx := rfl

end

/-! ## `State.dropHold` -/

section
variable (s : State) (c : ChainId) (a : Nat)

@[simp] theorem State.dropHold_pending : (s.dropHold c a).pending = s.pending := rfl
@[simp] theorem State.dropHold_regs : (s.dropHold c a).regs = s.regs := rfl
@[simp] theorem State.dropHold_runState : (s.dropHold c a).runState = s.runState := rfl
@[simp] theorem State.dropHold_book : (s.dropHold c a).book = s.book := rfl
@[simp] theorem State.dropHold_settings : (s.dropHold c a).settings = s.settings := rfl
@[simp] theorem State.dropHold_bookCopy : (s.dropHold c a).bookCopy = s.bookCopy := rfl
@[simp] theorem State.dropHold_mem : (s.dropHold c a).mem = s.mem := rfl
@[simp] theorem State.dropHold_chains : (s.dropHold c a).chains = s.chains := rfl
@[simp] theorem State.dropHold_screens : (s.dropHold c a).screens = s.screens := rfl
@[simp] theorem State.dropHold_capLoad : (s.dropHold c a).capLoad = s.capLoad := rfl
@[simp] theorem State.dropHold_blinkOn : (s.dropHold c a).blinkOn = s.blinkOn := rfl
@[simp] theorem State.dropHold_blinkRunning : (s.dropHold c a).blinkRunning = s.blinkRunning := rfl
@[simp] theorem State.dropHold_streams : (s.dropHold c a).streams = s.streams := rfl
@[simp] theorem State.dropHold_link : (s.dropHold c a).link = s.link := rfl
@[simp] theorem State.dropHold_vehicle : (s.dropHold c a).vehicle = s.vehicle := rfl
@[simp] theorem State.dropHold_linePin : (s.dropHold c a).linePin = s.linePin := rfl
@[simp] theorem State.dropHold_monitor : (s.dropHold c a).monitor = s.monitor := rfl
@[simp] theorem State.dropHold_takeover : (s.dropHold c a).takeover = s.takeover := rfl
@[simp] theorem State.dropHold_camera : (s.dropHold c a).camera = s.camera := rfl
@[simp] theorem State.dropHold_guide : (s.dropHold c a).guide = s.guide := rfl
@[simp] theorem State.dropHold_chime : (s.dropHold c a).chime = s.chime := rfl
@[simp] theorem State.dropHold_status : (s.dropHold c a).status = s.status := rfl
@[simp] theorem State.dropHold_freeIx : (s.dropHold c a).freeIx = s.freeIx := rfl
@[simp] theorem State.dropHold_holds : (s.dropHold c a).holds = s.holds.filter (fun h => !h.isFor c a) := rfl

end

/-! ## `State.modHold` -/

section
variable (s : State) (c : ChainId) (a : Nat) (f : Hold → Hold)

@[simp] theorem State.modHold_pending : (s.modHold c a f).pending = s.pending := by unfold State.modHold; split <;> rfl
@[simp] theorem State.modHold_regs : (s.modHold c a f).regs = s.regs := by unfold State.modHold; split <;> rfl
@[simp] theorem State.modHold_runState : (s.modHold c a f).runState = s.runState := by unfold State.modHold; split <;> rfl
@[simp] theorem State.modHold_book : (s.modHold c a f).book = s.book := by unfold State.modHold; split <;> rfl
@[simp] theorem State.modHold_settings : (s.modHold c a f).settings = s.settings := by unfold State.modHold; split <;> rfl
@[simp] theorem State.modHold_bookCopy : (s.modHold c a f).bookCopy = s.bookCopy := by unfold State.modHold; split <;> rfl
@[simp] theorem State.modHold_mem : (s.modHold c a f).mem = s.mem := by unfold State.modHold; split <;> rfl
@[simp] theorem State.modHold_chains : (s.modHold c a f).chains = s.chains := by unfold State.modHold; split <;> rfl
@[simp] theorem State.modHold_screens : (s.modHold c a f).screens = s.screens := by unfold State.modHold; split <;> rfl
@[simp] theorem State.modHold_capLoad : (s.modHold c a f).capLoad = s.capLoad := by unfold State.modHold; split <;> rfl
@[simp] theorem State.modHold_blinkOn : (s.modHold c a f).blinkOn = s.blinkOn := by unfold State.modHold; split <;> rfl
@[simp] theorem State.modHold_blinkRunning : (s.modHold c a f).blinkRunning = s.blinkRunning := by unfold State.modHold; split <;> rfl
@[simp] theorem State.modHold_streams : (s.modHold c a f).streams = s.streams := by unfold State.modHold; split <;> rfl
@[simp] theorem State.modHold_link : (s.modHold c a f).link = s.link := by unfold State.modHold; split <;> rfl
@[simp] theorem State.modHold_vehicle : (s.modHold c a f).vehicle = s.vehicle := by unfold State.modHold; split <;> rfl
@[simp] theorem State.modHold_linePin : (s.modHold c a f).linePin = s.linePin := by unfold State.modHold; split <;> rfl
@[simp] theorem State.modHold_monitor : (s.modHold c a f).monitor = s.monitor := by unfold State.modHold; split <;> rfl
@[simp] theorem State.modHold_takeover : (s.modHold c a f).takeover = s.takeover := by unfold State.modHold; split <;> rfl
@[simp] theorem State.modHold_camera : (s.modHold c a f).camera = s.camera := by unfold State.modHold; split <;> rfl
@[simp] theorem State.modHold_guide : (s.modHold c a f).guide = s.guide := by unfold State.modHold; split <;> rfl
@[simp] theorem State.modHold_chime : (s.modHold c a f).chime = s.chime := by unfold State.modHold; split <;> rfl
@[simp] theorem State.modHold_status : (s.modHold c a f).status = s.status := by unfold State.modHold; split <;> rfl
@[simp] theorem State.modHold_freeIx : (s.modHold c a f).freeIx = s.freeIx := by unfold State.modHold; split <;> rfl

end

/-! ## `State.modChime` -/

section
variable (s : State) (f : Chime → Chime)

@[simp] theorem State.modChime_pending : (s.modChime f).pending = s.pending := rfl
@[simp] theorem State.modChime_regs : (s.modChime f).regs = s.regs := rfl
@[simp] theorem State.modChime_runState : (s.modChime f).runState = s.runState := rfl
@[simp] theorem State.modChime_book : (s.modChime f).book = s.book := rfl
@[simp] theorem State.modChime_settings : (s.modChime f).settings = s.settings := rfl
@[simp] theorem State.modChime_bookCopy : (s.modChime f).bookCopy = s.bookCopy := rfl
@[simp] theorem State.modChime_mem : (s.modChime f).mem = s.mem := rfl
@[simp] theorem State.modChime_chains : (s.modChime f).chains = s.chains := rfl
@[simp] theorem State.modChime_holds : (s.modChime f).holds = s.holds := rfl
@[simp] theorem State.modChime_screens : (s.modChime f).screens = s.screens := rfl
@[simp] theorem State.modChime_capLoad : (s.modChime f).capLoad = s.capLoad := rfl
@[simp] theorem State.modChime_blinkOn : (s.modChime f).blinkOn = s.blinkOn := rfl
@[simp] theorem State.modChime_blinkRunning : (s.modChime f).blinkRunning = s.blinkRunning := rfl
@[simp] theorem State.modChime_streams : (s.modChime f).streams = s.streams := rfl
@[simp] theorem State.modChime_link : (s.modChime f).link = s.link := rfl
@[simp] theorem State.modChime_vehicle : (s.modChime f).vehicle = s.vehicle := rfl
@[simp] theorem State.modChime_linePin : (s.modChime f).linePin = s.linePin := rfl
@[simp] theorem State.modChime_monitor : (s.modChime f).monitor = s.monitor := rfl
@[simp] theorem State.modChime_takeover : (s.modChime f).takeover = s.takeover := rfl
@[simp] theorem State.modChime_camera : (s.modChime f).camera = s.camera := rfl
@[simp] theorem State.modChime_guide : (s.modChime f).guide = s.guide := rfl
@[simp] theorem State.modChime_status : (s.modChime f).status = s.status := rfl
@[simp] theorem State.modChime_freeIx : (s.modChime f).freeIx = s.freeIx := rfl
@[simp] theorem State.modChime_chime : (s.modChime f).chime = f s.chime := rfl

end

/-! ## `State.modCamera` -/

section
variable (s : State) (f : Camera → Camera)

@[simp] theorem State.modCamera_pending : (s.modCamera f).pending = s.pending := rfl
@[simp] theorem State.modCamera_regs : (s.modCamera f).regs = s.regs := rfl
@[simp] theorem State.modCamera_runState : (s.modCamera f).runState = s.runState := rfl
@[simp] theorem State.modCamera_book : (s.modCamera f).book = s.book := rfl
@[simp] theorem State.modCamera_settings : (s.modCamera f).settings = s.settings := rfl
@[simp] theorem State.modCamera_bookCopy : (s.modCamera f).bookCopy = s.bookCopy := rfl
@[simp] theorem State.modCamera_mem : (s.modCamera f).mem = s.mem := rfl
@[simp] theorem State.modCamera_chains : (s.modCamera f).chains = s.chains := rfl
@[simp] theorem State.modCamera_holds : (s.modCamera f).holds = s.holds := rfl
@[simp] theorem State.modCamera_screens : (s.modCamera f).screens = s.screens := rfl
@[simp] theorem State.modCamera_capLoad : (s.modCamera f).capLoad = s.capLoad := rfl
@[simp] theorem State.modCamera_blinkOn : (s.modCamera f).blinkOn = s.blinkOn := rfl
@[simp] theorem State.modCamera_blinkRunning : (s.modCamera f).blinkRunning = s.blinkRunning := rfl
@[simp] theorem State.modCamera_streams : (s.modCamera f).streams = s.streams := rfl
@[simp] theorem State.modCamera_link : (s.modCamera f).link = s.link := rfl
@[simp] theorem State.modCamera_vehicle : (s.modCamera f).vehicle = s.vehicle := rfl
@[simp] theorem State.modCamera_linePin : (s.modCamera f).linePin = s.linePin := rfl
@[simp] theorem State.modCamera_monitor : (s.modCamera f).monitor = s.monitor := rfl
@[simp] theorem State.modCamera_takeover : (s.modCamera f).takeover = s.takeover := rfl
@[simp] theorem State.modCamera_guide : (s.modCamera f).guide = s.guide := rfl
@[simp] theorem State.modCamera_chime : (s.modCamera f).chime = s.chime := rfl
@[simp] theorem State.modCamera_status : (s.modCamera f).status = s.status := rfl
@[simp] theorem State.modCamera_freeIx : (s.modCamera f).freeIx = s.freeIx := rfl
@[simp] theorem State.modCamera_camera : (s.modCamera f).camera = f s.camera := rfl

end

/-! ## `State.modTakeover` -/

section
variable (s : State) (f : Takeover → Takeover)

@[simp] theorem State.modTakeover_pending : (s.modTakeover f).pending = s.pending := rfl
@[simp] theorem State.modTakeover_regs : (s.modTakeover f).regs = s.regs := rfl
@[simp] theorem State.modTakeover_runState : (s.modTakeover f).runState = s.runState := rfl
@[simp] theorem State.modTakeover_book : (s.modTakeover f).book = s.book := rfl
@[simp] theorem State.modTakeover_settings : (s.modTakeover f).settings = s.settings := rfl
@[simp] theorem State.modTakeover_bookCopy : (s.modTakeover f).bookCopy = s.bookCopy := rfl
@[simp] theorem State.modTakeover_mem : (s.modTakeover f).mem = s.mem := rfl
@[simp] theorem State.modTakeover_chains : (s.modTakeover f).chains = s.chains := rfl
@[simp] theorem State.modTakeover_holds : (s.modTakeover f).holds = s.holds := rfl
@[simp] theorem State.modTakeover_screens : (s.modTakeover f).screens = s.screens := rfl
@[simp] theorem State.modTakeover_capLoad : (s.modTakeover f).capLoad = s.capLoad := rfl
@[simp] theorem State.modTakeover_blinkOn : (s.modTakeover f).blinkOn = s.blinkOn := rfl
@[simp] theorem State.modTakeover_blinkRunning : (s.modTakeover f).blinkRunning = s.blinkRunning := rfl
@[simp] theorem State.modTakeover_streams : (s.modTakeover f).streams = s.streams := rfl
@[simp] theorem State.modTakeover_link : (s.modTakeover f).link = s.link := rfl
@[simp] theorem State.modTakeover_vehicle : (s.modTakeover f).vehicle = s.vehicle := rfl
@[simp] theorem State.modTakeover_linePin : (s.modTakeover f).linePin = s.linePin := rfl
@[simp] theorem State.modTakeover_monitor : (s.modTakeover f).monitor = s.monitor := rfl
@[simp] theorem State.modTakeover_camera : (s.modTakeover f).camera = s.camera := rfl
@[simp] theorem State.modTakeover_guide : (s.modTakeover f).guide = s.guide := rfl
@[simp] theorem State.modTakeover_chime : (s.modTakeover f).chime = s.chime := rfl
@[simp] theorem State.modTakeover_status : (s.modTakeover f).status = s.status := rfl
@[simp] theorem State.modTakeover_freeIx : (s.modTakeover f).freeIx = s.freeIx := rfl
@[simp] theorem State.modTakeover_takeover : (s.modTakeover f).takeover = f s.takeover := rfl

end

/-! ## `State.modLink` -/

section
variable (s : State) (f : Receiver → Receiver)

@[simp] theorem State.modLink_pending : (s.modLink f).pending = s.pending := rfl
@[simp] theorem State.modLink_regs : (s.modLink f).regs = s.regs := rfl
@[simp] theorem State.modLink_runState : (s.modLink f).runState = s.runState := rfl
@[simp] theorem State.modLink_book : (s.modLink f).book = s.book := rfl
@[simp] theorem State.modLink_settings : (s.modLink f).settings = s.settings := rfl
@[simp] theorem State.modLink_bookCopy : (s.modLink f).bookCopy = s.bookCopy := rfl
@[simp] theorem State.modLink_mem : (s.modLink f).mem = s.mem := rfl
@[simp] theorem State.modLink_chains : (s.modLink f).chains = s.chains := rfl
@[simp] theorem State.modLink_holds : (s.modLink f).holds = s.holds := rfl
@[simp] theorem State.modLink_screens : (s.modLink f).screens = s.screens := rfl
@[simp] theorem State.modLink_capLoad : (s.modLink f).capLoad = s.capLoad := rfl
@[simp] theorem State.modLink_blinkOn : (s.modLink f).blinkOn = s.blinkOn := rfl
@[simp] theorem State.modLink_blinkRunning : (s.modLink f).blinkRunning = s.blinkRunning := rfl
@[simp] theorem State.modLink_streams : (s.modLink f).streams = s.streams := rfl
@[simp] theorem State.modLink_vehicle : (s.modLink f).vehicle = s.vehicle := rfl
@[simp] theorem State.modLink_linePin : (s.modLink f).linePin = s.linePin := rfl
@[simp] theorem State.modLink_monitor : (s.modLink f).monitor = s.monitor := rfl
@[simp] theorem State.modLink_takeover : (s.modLink f).takeover = s.takeover := rfl
@[simp] theorem State.modLink_camera : (s.modLink f).camera = s.camera := rfl
@[simp] theorem State.modLink_guide : (s.modLink f).guide = s.guide := rfl
@[simp] theorem State.modLink_chime : (s.modLink f).chime = s.chime := rfl
@[simp] theorem State.modLink_status : (s.modLink f).status = s.status := rfl
@[simp] theorem State.modLink_freeIx : (s.modLink f).freeIx = s.freeIx := rfl
@[simp] theorem State.modLink_link : (s.modLink f).link = f s.link := rfl

end

/-! ## `State.modVehicle` -/

section
variable (s : State) (f : Vehicle → Vehicle)

@[simp] theorem State.modVehicle_pending : (s.modVehicle f).pending = s.pending := rfl
@[simp] theorem State.modVehicle_regs : (s.modVehicle f).regs = s.regs := rfl
@[simp] theorem State.modVehicle_runState : (s.modVehicle f).runState = s.runState := rfl
@[simp] theorem State.modVehicle_book : (s.modVehicle f).book = s.book := rfl
@[simp] theorem State.modVehicle_settings : (s.modVehicle f).settings = s.settings := rfl
@[simp] theorem State.modVehicle_bookCopy : (s.modVehicle f).bookCopy = s.bookCopy := rfl
@[simp] theorem State.modVehicle_mem : (s.modVehicle f).mem = s.mem := rfl
@[simp] theorem State.modVehicle_chains : (s.modVehicle f).chains = s.chains := rfl
@[simp] theorem State.modVehicle_holds : (s.modVehicle f).holds = s.holds := rfl
@[simp] theorem State.modVehicle_screens : (s.modVehicle f).screens = s.screens := rfl
@[simp] theorem State.modVehicle_capLoad : (s.modVehicle f).capLoad = s.capLoad := rfl
@[simp] theorem State.modVehicle_blinkOn : (s.modVehicle f).blinkOn = s.blinkOn := rfl
@[simp] theorem State.modVehicle_blinkRunning : (s.modVehicle f).blinkRunning = s.blinkRunning := rfl
@[simp] theorem State.modVehicle_streams : (s.modVehicle f).streams = s.streams := rfl
@[simp] theorem State.modVehicle_link : (s.modVehicle f).link = s.link := rfl
@[simp] theorem State.modVehicle_linePin : (s.modVehicle f).linePin = s.linePin := rfl
@[simp] theorem State.modVehicle_monitor : (s.modVehicle f).monitor = s.monitor := rfl
@[simp] theorem State.modVehicle_takeover : (s.modVehicle f).takeover = s.takeover := rfl
@[simp] theorem State.modVehicle_camera : (s.modVehicle f).camera = s.camera := rfl
@[simp] theorem State.modVehicle_guide : (s.modVehicle f).guide = s.guide := rfl
@[simp] theorem State.modVehicle_chime : (s.modVehicle f).chime = s.chime := rfl
@[simp] theorem State.modVehicle_status : (s.modVehicle f).status = s.status := rfl
@[simp] theorem State.modVehicle_freeIx : (s.modVehicle f).freeIx = s.freeIx := rfl
@[simp] theorem State.modVehicle_vehicle : (s.modVehicle f).vehicle = f s.vehicle := rfl

end

/-! ## `State.modStatus` -/

section
variable (s : State) (f : StatusWriter → StatusWriter)

@[simp] theorem State.modStatus_pending : (s.modStatus f).pending = s.pending := rfl
@[simp] theorem State.modStatus_regs : (s.modStatus f).regs = s.regs := rfl
@[simp] theorem State.modStatus_runState : (s.modStatus f).runState = s.runState := rfl
@[simp] theorem State.modStatus_book : (s.modStatus f).book = s.book := rfl
@[simp] theorem State.modStatus_settings : (s.modStatus f).settings = s.settings := rfl
@[simp] theorem State.modStatus_bookCopy : (s.modStatus f).bookCopy = s.bookCopy := rfl
@[simp] theorem State.modStatus_mem : (s.modStatus f).mem = s.mem := rfl
@[simp] theorem State.modStatus_chains : (s.modStatus f).chains = s.chains := rfl
@[simp] theorem State.modStatus_holds : (s.modStatus f).holds = s.holds := rfl
@[simp] theorem State.modStatus_screens : (s.modStatus f).screens = s.screens := rfl
@[simp] theorem State.modStatus_capLoad : (s.modStatus f).capLoad = s.capLoad := rfl
@[simp] theorem State.modStatus_blinkOn : (s.modStatus f).blinkOn = s.blinkOn := rfl
@[simp] theorem State.modStatus_blinkRunning : (s.modStatus f).blinkRunning = s.blinkRunning := rfl
@[simp] theorem State.modStatus_streams : (s.modStatus f).streams = s.streams := rfl
@[simp] theorem State.modStatus_link : (s.modStatus f).link = s.link := rfl
@[simp] theorem State.modStatus_vehicle : (s.modStatus f).vehicle = s.vehicle := rfl
@[simp] theorem State.modStatus_linePin : (s.modStatus f).linePin = s.linePin := rfl
@[simp] theorem State.modStatus_monitor : (s.modStatus f).monitor = s.monitor := rfl
@[simp] theorem State.modStatus_takeover : (s.modStatus f).takeover = s.takeover := rfl
@[simp] theorem State.modStatus_camera : (s.modStatus f).camera = s.camera := rfl
@[simp] theorem State.modStatus_guide : (s.modStatus f).guide = s.guide := rfl
@[simp] theorem State.modStatus_chime : (s.modStatus f).chime = s.chime := rfl
@[simp] theorem State.modStatus_freeIx : (s.modStatus f).freeIx = s.freeIx := rfl
@[simp] theorem State.modStatus_status : (s.modStatus f).status = f s.status := rfl

end

/-! ## `State.modRegs` -/

section
variable (s : State) (f : Regs → Regs)

@[simp] theorem State.modRegs_pending : (s.modRegs f).pending = s.pending := rfl
@[simp] theorem State.modRegs_runState : (s.modRegs f).runState = s.runState := rfl
@[simp] theorem State.modRegs_book : (s.modRegs f).book = s.book := rfl
@[simp] theorem State.modRegs_settings : (s.modRegs f).settings = s.settings := rfl
@[simp] theorem State.modRegs_bookCopy : (s.modRegs f).bookCopy = s.bookCopy := rfl
@[simp] theorem State.modRegs_mem : (s.modRegs f).mem = s.mem := rfl
@[simp] theorem State.modRegs_chains : (s.modRegs f).chains = s.chains := rfl
@[simp] theorem State.modRegs_holds : (s.modRegs f).holds = s.holds := rfl
@[simp] theorem State.modRegs_screens : (s.modRegs f).screens = s.screens := rfl
@[simp] theorem State.modRegs_capLoad : (s.modRegs f).capLoad = s.capLoad := rfl
@[simp] theorem State.modRegs_blinkOn : (s.modRegs f).blinkOn = s.blinkOn := rfl
@[simp] theorem State.modRegs_blinkRunning : (s.modRegs f).blinkRunning = s.blinkRunning := rfl
@[simp] theorem State.modRegs_streams : (s.modRegs f).streams = s.streams := rfl
@[simp] theorem State.modRegs_link : (s.modRegs f).link = s.link := rfl
@[simp] theorem State.modRegs_vehicle : (s.modRegs f).vehicle = s.vehicle := rfl
@[simp] theorem State.modRegs_linePin : (s.modRegs f).linePin = s.linePin := rfl
@[simp] theorem State.modRegs_monitor : (s.modRegs f).monitor = s.monitor := rfl
@[simp] theorem State.modRegs_takeover : (s.modRegs f).takeover = s.takeover := rfl
@[simp] theorem State.modRegs_camera : (s.modRegs f).camera = s.camera := rfl
@[simp] theorem State.modRegs_guide : (s.modRegs f).guide = s.guide := rfl
@[simp] theorem State.modRegs_chime : (s.modRegs f).chime = s.chime := rfl
@[simp] theorem State.modRegs_status : (s.modRegs f).status = s.status := rfl
@[simp] theorem State.modRegs_freeIx : (s.modRegs f).freeIx = s.freeIx := rfl
@[simp] theorem State.modRegs_regs : (s.modRegs f).regs = f s.regs := rfl

end

/-! ## What a raise leaves of the registers -/

section
variable (s : State) (b : Bool) (n : Notice)

@[simp] theorem State.raiseIf_regs_bookAddr : (s.raiseIf b n).regs.bookAddr = s.regs.bookAddr := by cases b <;> rfl
@[simp] theorem State.raiseIf_regs_run : (s.raiseIf b n).regs.run = s.regs.run := by cases b <;> rfl
@[simp] theorem State.raiseIf_regs_standby : (s.raiseIf b n).regs.standby = s.regs.standby := by cases b <;> rfl
@[simp] theorem State.raiseIf_regs_freeze : (s.raiseIf b n).regs.freeze = s.regs.freeze := by cases b <;> rfl
@[simp] theorem State.raiseIf_regs_irqEnable : (s.raiseIf b n).regs.irqEnable = s.regs.irqEnable := by cases b <;> rfl
@[simp] theorem State.raiseIf_regs_noticeMask : (s.raiseIf b n).regs.noticeMask = s.regs.noticeMask := by cases b <;> rfl
@[simp] theorem State.raiseIf_regs_startResult : (s.raiseIf b n).regs.startResult = s.regs.startResult := by cases b <;> rfl
@[simp] theorem State.raiseIf_regs_startDetail : (s.raiseIf b n).regs.startDetail = s.regs.startDetail := by cases b <;> rfl
@[simp] theorem State.raiseIf_regs_guideRejected : (s.raiseIf b n).regs.guideRejected = s.regs.guideRejected := by cases b <;> rfl

end

/-! ## Collections -/

@[simp] theorem PerScreen.get_set_same {α : Type} (p : PerScreen α) (i : ScreenId) (v : α) : (p.set i v).get i = v := by
  cases i <;> rfl

@[simp] theorem PerScreen.get_set_ne {α : Type} (p : PerScreen α) {i j : ScreenId} (v : α) (h : j ≠ i) :
    (p.set i v).get j = p.get j := by
  cases i <;> cases j <;> first | rfl | exact absurd rfl h

@[simp] theorem PerStream.get_set_same {α : Type} (p : PerStream α) (i : StreamId) (v : α) : (p.set i v).get i = v := by
  cases i <;> rfl

@[simp] theorem PerStream.get_set_ne {α : Type} (p : PerStream α) {i j : StreamId} (v : α) (h : j ≠ i) :
    (p.set i v).get j = p.get j := by
  cases i <;> cases j <;> first | rfl | exact absurd rfl h

@[simp] theorem PerKind.get_set_same {α : Type} (p : PerKind α) (i : Kind) (v : α) : (p.set i v).get i = v := by
  cases i <;> rfl

@[simp] theorem PerKind.get_set_ne {α : Type} (p : PerKind α) {i j : Kind} (v : α) (h : j ≠ i) :
    (p.set i v).get j = p.get j := by
  cases i <;> cases j <;> first | rfl | exact absurd rfl h

@[simp] theorem PerScreen.get_map {α β : Type} (p : PerScreen α) (f : α → β) (i : ScreenId) :
    (p.map f).get i = f (p.get i) := by
  cases i <;> rfl

@[simp] theorem State.chain_setChain_same (s : State) (c : ChainId) (v : Chain) : (s.setChain c v).chain c = v := by
  cases c <;> simp [State.setChain, State.chain]

@[simp] theorem State.chain_setChain_ne (s : State) {c d : ChainId} (v : Chain) (h : d ≠ c) :
    (s.setChain c v).chain d = s.chain d := by
  cases c with
  | chime => cases d <;> first | rfl | exact absurd rfl h
  | plan i =>
    cases d with
    | plan j => exact PerScreen.get_set_ne _ _ (by simpa using h)
    | film y => rfl
    | chime => rfl
  | film x =>
    cases d with
    | film y => exact PerStream.get_set_ne _ _ (by simpa using h)
    | plan j => rfl
    | chime => rfl

end Sys2Proof.Machine
end

