-- ==== Sys2Proof/Laws/Frames.lean ====
section
/-! SUPPORT. What each operation leaves as it is: one lemma for each operation, field by field. A field a lemma does not
name may change. -/

namespace Sys2Proof.Machine

/-! ## Fields that the chain unit's operations keep -/

theorem Entries.frame {s t : State} (h : Entries s t) :
    t.pending = s.pending ∧ t.runState = s.runState ∧ t.settings = s.settings ∧ t.bookCopy = s.bookCopy ∧
    t.book = s.book ∧
    t.linePin = s.linePin ∧ t.chains = s.chains ∧ t.screens = s.screens ∧ t.capLoad = s.capLoad ∧
    t.blinkOn = s.blinkOn ∧ t.blinkRunning = s.blinkRunning ∧ t.streams = s.streams ∧ t.link = s.link ∧
    t.vehicle = s.vehicle ∧ t.monitor = s.monitor ∧ t.takeover = s.takeover ∧ t.camera = s.camera ∧
    t.guide = s.guide ∧ t.chime = s.chime ∧ t.status = s.status ∧ t.freeIx = s.freeIx ∧ t.regs.run = s.regs.run ∧
    t.regs.standby = s.regs.standby ∧ t.regs.freeze = s.regs.freeze := by
  obtain ⟨m, k, n, rfl⟩ := h
  exact ⟨rfl, rfl, rfl, rfl, rfl, rfl, rfl, rfl, rfl, rfl, rfl, rfl, rfl, rfl, rfl, rfl, rfl, rfl, rfl, rfl, rfl, rfl, rfl, rfl⟩

theorem Chained.frame {c : ChainId} {s t : State} (h : Chained c s t) :
    t.pending = s.pending ∧ t.runState = s.runState ∧ t.settings = s.settings ∧ t.bookCopy = s.bookCopy ∧
    t.book = s.book ∧
    t.linePin = s.linePin ∧ t.screens = s.screens ∧ t.capLoad = s.capLoad ∧ t.blinkOn = s.blinkOn ∧
    t.blinkRunning = s.blinkRunning ∧ t.streams = s.streams ∧ t.link = s.link ∧ t.vehicle = s.vehicle ∧
    t.monitor = s.monitor ∧ t.takeover = s.takeover ∧ t.camera = s.camera ∧ t.guide = s.guide ∧ t.chime = s.chime ∧
    t.status = s.status ∧ t.regs.run = s.regs.run ∧ t.regs.standby = s.regs.standby ∧ t.regs.freeze = s.regs.freeze := by
  obtain ⟨m, k, n, f, v, rfl⟩ := h
  rcases c with i | x | _
  · cases i <;> exact ⟨rfl, rfl, rfl, rfl, rfl, rfl, rfl, rfl, rfl, rfl, rfl, rfl, rfl, rfl, rfl, rfl, rfl, rfl, rfl, rfl, rfl, rfl⟩
  · cases x <;> exact ⟨rfl, rfl, rfl, rfl, rfl, rfl, rfl, rfl, rfl, rfl, rfl, rfl, rfl, rfl, rfl, rfl, rfl, rfl, rfl, rfl, rfl, rfl⟩
  · exact ⟨rfl, rfl, rfl, rfl, rfl, rfl, rfl, rfl, rfl, rfl, rfl, rfl, rfl, rfl, rfl, rfl, rfl, rfl, rfl, rfl, rfl, rfl⟩

/-! ## One lemma for each operation -/

@[simp] theorem State.retire_frame (s : State) (h : Hold) :
    (s.retire h).pending = s.pending ∧ (s.retire h).runState = s.runState ∧ (s.retire h).settings = s.settings ∧
    (s.retire h).bookCopy = s.bookCopy ∧
    (s.retire h).book = s.book ∧ (s.retire h).linePin = s.linePin ∧ (s.retire h).chains = s.chains ∧
    (s.retire h).screens = s.screens ∧ (s.retire h).capLoad = s.capLoad ∧ (s.retire h).blinkOn = s.blinkOn ∧
    (s.retire h).blinkRunning = s.blinkRunning ∧ (s.retire h).streams = s.streams ∧ (s.retire h).link = s.link ∧
    (s.retire h).vehicle = s.vehicle ∧ (s.retire h).monitor = s.monitor ∧ (s.retire h).takeover = s.takeover ∧
    (s.retire h).camera = s.camera ∧ (s.retire h).guide = s.guide ∧ (s.retire h).chime = s.chime ∧
    (s.retire h).status = s.status ∧ (s.retire h).freeIx = s.freeIx ∧ (s.retire h).regs.run = s.regs.run ∧
    (s.retire h).regs.standby = s.regs.standby ∧ (s.retire h).regs.freeze = s.regs.freeze :=
  (entries_retire s h).frame

@[simp] theorem State.syncHold_frame (s : State) (h : Hold) :
    (s.syncHold h).pending = s.pending ∧ (s.syncHold h).runState = s.runState ∧
    (s.syncHold h).settings = s.settings ∧ (s.syncHold h).bookCopy = s.bookCopy ∧ (s.syncHold h).book = s.book ∧
    (s.syncHold h).linePin = s.linePin ∧
    (s.syncHold h).chains = s.chains ∧ (s.syncHold h).screens = s.screens ∧ (s.syncHold h).capLoad = s.capLoad ∧
    (s.syncHold h).blinkOn = s.blinkOn ∧ (s.syncHold h).blinkRunning = s.blinkRunning ∧
    (s.syncHold h).streams = s.streams ∧ (s.syncHold h).link = s.link ∧ (s.syncHold h).vehicle = s.vehicle ∧
    (s.syncHold h).monitor = s.monitor ∧ (s.syncHold h).takeover = s.takeover ∧ (s.syncHold h).camera = s.camera ∧
    (s.syncHold h).guide = s.guide ∧ (s.syncHold h).chime = s.chime ∧ (s.syncHold h).status = s.status ∧
    (s.syncHold h).freeIx = s.freeIx ∧ (s.syncHold h).regs.run = s.regs.run ∧
    (s.syncHold h).regs.standby = s.regs.standby ∧ (s.syncHold h).regs.freeze = s.regs.freeze :=
  (entries_syncHold s h).frame

@[simp] theorem State.settle_frame (s : State) (c : ChainId) (a : Nat) :
    (s.settle c a).pending = s.pending ∧ (s.settle c a).runState = s.runState ∧
    (s.settle c a).settings = s.settings ∧ (s.settle c a).bookCopy = s.bookCopy ∧ (s.settle c a).book = s.book ∧
    (s.settle c a).linePin = s.linePin ∧
    (s.settle c a).chains = s.chains ∧ (s.settle c a).screens = s.screens ∧ (s.settle c a).capLoad = s.capLoad ∧
    (s.settle c a).blinkOn = s.blinkOn ∧ (s.settle c a).blinkRunning = s.blinkRunning ∧
    (s.settle c a).streams = s.streams ∧ (s.settle c a).link = s.link ∧ (s.settle c a).vehicle = s.vehicle ∧
    (s.settle c a).monitor = s.monitor ∧ (s.settle c a).takeover = s.takeover ∧ (s.settle c a).camera = s.camera ∧
    (s.settle c a).guide = s.guide ∧ (s.settle c a).chime = s.chime ∧ (s.settle c a).status = s.status ∧
    (s.settle c a).freeIx = s.freeIx ∧ (s.settle c a).regs.run = s.regs.run ∧
    (s.settle c a).regs.standby = s.regs.standby ∧ (s.settle c a).regs.freeze = s.regs.freeze :=
  (entries_settle s c a).frame

@[simp] theorem State.endClient_frame (s : State) (c : ChainId) (a : Nat) :
    (s.endClient c a).pending = s.pending ∧ (s.endClient c a).runState = s.runState ∧
    (s.endClient c a).settings = s.settings ∧ (s.endClient c a).bookCopy = s.bookCopy ∧
    (s.endClient c a).book = s.book ∧
    (s.endClient c a).linePin = s.linePin ∧ (s.endClient c a).chains = s.chains ∧
    (s.endClient c a).screens = s.screens ∧ (s.endClient c a).capLoad = s.capLoad ∧
    (s.endClient c a).blinkOn = s.blinkOn ∧ (s.endClient c a).blinkRunning = s.blinkRunning ∧
    (s.endClient c a).streams = s.streams ∧ (s.endClient c a).link = s.link ∧ (s.endClient c a).vehicle = s.vehicle ∧
    (s.endClient c a).monitor = s.monitor ∧ (s.endClient c a).takeover = s.takeover ∧
    (s.endClient c a).camera = s.camera ∧ (s.endClient c a).guide = s.guide ∧ (s.endClient c a).chime = s.chime ∧
    (s.endClient c a).status = s.status ∧ (s.endClient c a).freeIx = s.freeIx ∧
    (s.endClient c a).regs.run = s.regs.run ∧ (s.endClient c a).regs.standby = s.regs.standby ∧
    (s.endClient c a).regs.freeze = s.regs.freeze :=
  (entries_endClient s c a).frame

@[simp] theorem State.endCursor_frame (s : State) (c : ChainId) :
    (s.endCursor c).pending = s.pending ∧ (s.endCursor c).runState = s.runState ∧
    (s.endCursor c).settings = s.settings ∧ (s.endCursor c).bookCopy = s.bookCopy ∧ (s.endCursor c).book = s.book ∧
    (s.endCursor c).linePin = s.linePin ∧
    (s.endCursor c).chains = s.chains ∧ (s.endCursor c).screens = s.screens ∧ (s.endCursor c).capLoad = s.capLoad ∧
    (s.endCursor c).blinkOn = s.blinkOn ∧ (s.endCursor c).blinkRunning = s.blinkRunning ∧
    (s.endCursor c).streams = s.streams ∧ (s.endCursor c).link = s.link ∧ (s.endCursor c).vehicle = s.vehicle ∧
    (s.endCursor c).monitor = s.monitor ∧ (s.endCursor c).takeover = s.takeover ∧ (s.endCursor c).camera = s.camera ∧
    (s.endCursor c).guide = s.guide ∧ (s.endCursor c).chime = s.chime ∧ (s.endCursor c).status = s.status ∧
    (s.endCursor c).freeIx = s.freeIx ∧ (s.endCursor c).regs.run = s.regs.run ∧
    (s.endCursor c).regs.standby = s.regs.standby ∧ (s.endCursor c).regs.freeze = s.regs.freeze :=
  (entries_endCursor s c).frame

@[simp] theorem State.endChime_frame (s : State) (a : Nat) (v : EntryState) (k : Nat) :
    (s.endChime a v k).pending = s.pending ∧ (s.endChime a v k).runState = s.runState ∧
    (s.endChime a v k).settings = s.settings ∧ (s.endChime a v k).bookCopy = s.bookCopy ∧
    (s.endChime a v k).book = s.book ∧
    (s.endChime a v k).linePin = s.linePin ∧ (s.endChime a v k).chains = s.chains ∧
    (s.endChime a v k).screens = s.screens ∧ (s.endChime a v k).capLoad = s.capLoad ∧
    (s.endChime a v k).blinkOn = s.blinkOn ∧ (s.endChime a v k).blinkRunning = s.blinkRunning ∧
    (s.endChime a v k).streams = s.streams ∧ (s.endChime a v k).link = s.link ∧
    (s.endChime a v k).vehicle = s.vehicle ∧ (s.endChime a v k).monitor = s.monitor ∧
    (s.endChime a v k).takeover = s.takeover ∧ (s.endChime a v k).camera = s.camera ∧
    (s.endChime a v k).guide = s.guide ∧ (s.endChime a v k).chime = s.chime ∧ (s.endChime a v k).status = s.status ∧
    (s.endChime a v k).freeIx = s.freeIx ∧ (s.endChime a v k).regs.run = s.regs.run ∧
    (s.endChime a v k).regs.standby = s.regs.standby ∧ (s.endChime a v k).regs.freeze = s.regs.freeze :=
  (entries_endChime s a v k).frame

@[simp] theorem State.beginEntry_frame (s : State) (a : Nat) :
    (s.beginEntry a).pending = s.pending ∧ (s.beginEntry a).runState = s.runState ∧
    (s.beginEntry a).settings = s.settings ∧ (s.beginEntry a).bookCopy = s.bookCopy ∧ (s.beginEntry a).book = s.book ∧
    (s.beginEntry a).linePin = s.linePin ∧
    (s.beginEntry a).chains = s.chains ∧ (s.beginEntry a).screens = s.screens ∧
    (s.beginEntry a).capLoad = s.capLoad ∧ (s.beginEntry a).blinkOn = s.blinkOn ∧
    (s.beginEntry a).blinkRunning = s.blinkRunning ∧ (s.beginEntry a).streams = s.streams ∧
    (s.beginEntry a).link = s.link ∧ (s.beginEntry a).vehicle = s.vehicle ∧ (s.beginEntry a).monitor = s.monitor ∧
    (s.beginEntry a).takeover = s.takeover ∧ (s.beginEntry a).camera = s.camera ∧ (s.beginEntry a).guide = s.guide ∧
    (s.beginEntry a).chime = s.chime ∧ (s.beginEntry a).status = s.status ∧ (s.beginEntry a).freeIx = s.freeIx ∧
    (s.beginEntry a).regs.run = s.regs.run ∧ (s.beginEntry a).regs.standby = s.regs.standby ∧
    (s.beginEntry a).regs.freeze = s.regs.freeze :=
  (entries_beginEntry s a).frame

@[simp] theorem State.endPlan_frame (s : State) (i : ScreenId) :
    (s.endPlan i).pending = s.pending ∧ (s.endPlan i).runState = s.runState ∧ (s.endPlan i).settings = s.settings ∧
    (s.endPlan i).bookCopy = s.bookCopy ∧
    (s.endPlan i).book = s.book ∧ (s.endPlan i).linePin = s.linePin ∧ (s.endPlan i).chains = s.chains ∧
    (s.endPlan i).screens = s.screens ∧ (s.endPlan i).capLoad = s.capLoad ∧ (s.endPlan i).blinkOn = s.blinkOn ∧
    (s.endPlan i).blinkRunning = s.blinkRunning ∧ (s.endPlan i).streams = s.streams ∧ (s.endPlan i).link = s.link ∧
    (s.endPlan i).vehicle = s.vehicle ∧ (s.endPlan i).monitor = s.monitor ∧ (s.endPlan i).takeover = s.takeover ∧
    (s.endPlan i).camera = s.camera ∧ (s.endPlan i).guide = s.guide ∧ (s.endPlan i).chime = s.chime ∧
    (s.endPlan i).status = s.status ∧ (s.endPlan i).freeIx = s.freeIx ∧ (s.endPlan i).regs.run = s.regs.run ∧
    (s.endPlan i).regs.standby = s.regs.standby ∧ (s.endPlan i).regs.freeze = s.regs.freeze :=
  (entries_endPlan s i).frame

@[simp] theorem State.endShown_frame (s : State) (x : StreamId) :
    (s.endShown x).pending = s.pending ∧ (s.endShown x).runState = s.runState ∧
    (s.endShown x).settings = s.settings ∧ (s.endShown x).bookCopy = s.bookCopy ∧ (s.endShown x).book = s.book ∧
    (s.endShown x).linePin = s.linePin ∧
    (s.endShown x).chains = s.chains ∧ (s.endShown x).screens = s.screens ∧ (s.endShown x).capLoad = s.capLoad ∧
    (s.endShown x).blinkOn = s.blinkOn ∧ (s.endShown x).blinkRunning = s.blinkRunning ∧
    (s.endShown x).streams = s.streams ∧ (s.endShown x).link = s.link ∧ (s.endShown x).vehicle = s.vehicle ∧
    (s.endShown x).monitor = s.monitor ∧ (s.endShown x).takeover = s.takeover ∧ (s.endShown x).camera = s.camera ∧
    (s.endShown x).guide = s.guide ∧ (s.endShown x).chime = s.chime ∧ (s.endShown x).status = s.status ∧
    (s.endShown x).freeIx = s.freeIx ∧ (s.endShown x).regs.run = s.regs.run ∧
    (s.endShown x).regs.standby = s.regs.standby ∧ (s.endShown x).regs.freeze = s.regs.freeze :=
  (entries_endShown s x).frame

@[simp] theorem State.recordShed_frame (s : State) (i : ScreenId) (m : BitVec 6) :
    (s.recordShed i m).pending = s.pending ∧ (s.recordShed i m).runState = s.runState ∧
    (s.recordShed i m).settings = s.settings ∧ (s.recordShed i m).bookCopy = s.bookCopy ∧
    (s.recordShed i m).book = s.book ∧
    (s.recordShed i m).linePin = s.linePin ∧ (s.recordShed i m).chains = s.chains ∧
    (s.recordShed i m).screens = s.screens ∧ (s.recordShed i m).capLoad = s.capLoad ∧
    (s.recordShed i m).blinkOn = s.blinkOn ∧ (s.recordShed i m).blinkRunning = s.blinkRunning ∧
    (s.recordShed i m).streams = s.streams ∧ (s.recordShed i m).link = s.link ∧
    (s.recordShed i m).vehicle = s.vehicle ∧ (s.recordShed i m).monitor = s.monitor ∧
    (s.recordShed i m).takeover = s.takeover ∧ (s.recordShed i m).camera = s.camera ∧
    (s.recordShed i m).guide = s.guide ∧ (s.recordShed i m).chime = s.chime ∧ (s.recordShed i m).status = s.status ∧
    (s.recordShed i m).freeIx = s.freeIx ∧ (s.recordShed i m).regs.run = s.regs.run ∧
    (s.recordShed i m).regs.standby = s.regs.standby ∧ (s.recordShed i m).regs.freeze = s.regs.freeze :=
  (entries_recordShed s i m).frame

@[simp] theorem State.setRefs_frame (s : State) (i : ScreenId) (f : Hold → Bool) :
    (s.setRefs i f).pending = s.pending ∧ (s.setRefs i f).runState = s.runState ∧
    (s.setRefs i f).settings = s.settings ∧ (s.setRefs i f).bookCopy = s.bookCopy ∧ (s.setRefs i f).book = s.book ∧
    (s.setRefs i f).linePin = s.linePin ∧
    (s.setRefs i f).chains = s.chains ∧ (s.setRefs i f).screens = s.screens ∧ (s.setRefs i f).capLoad = s.capLoad ∧
    (s.setRefs i f).blinkOn = s.blinkOn ∧ (s.setRefs i f).blinkRunning = s.blinkRunning ∧
    (s.setRefs i f).streams = s.streams ∧ (s.setRefs i f).link = s.link ∧ (s.setRefs i f).vehicle = s.vehicle ∧
    (s.setRefs i f).monitor = s.monitor ∧ (s.setRefs i f).takeover = s.takeover ∧ (s.setRefs i f).camera = s.camera ∧
    (s.setRefs i f).guide = s.guide ∧ (s.setRefs i f).chime = s.chime ∧ (s.setRefs i f).status = s.status ∧
    (s.setRefs i f).freeIx = s.freeIx ∧ (s.setRefs i f).regs.run = s.regs.run ∧
    (s.setRefs i f).regs.standby = s.regs.standby ∧ (s.setRefs i f).regs.freeze = s.regs.freeze :=
  (entries_setRefs s i f).frame

@[simp] theorem State.countPlan_frame (s : State) (i : ScreenId) :
    (s.countPlan i).pending = s.pending ∧ (s.countPlan i).runState = s.runState ∧
    (s.countPlan i).settings = s.settings ∧ (s.countPlan i).bookCopy = s.bookCopy ∧ (s.countPlan i).book = s.book ∧
    (s.countPlan i).linePin = s.linePin ∧
    (s.countPlan i).chains = s.chains ∧ (s.countPlan i).screens = s.screens ∧ (s.countPlan i).capLoad = s.capLoad ∧
    (s.countPlan i).blinkOn = s.blinkOn ∧ (s.countPlan i).blinkRunning = s.blinkRunning ∧
    (s.countPlan i).streams = s.streams ∧ (s.countPlan i).link = s.link ∧ (s.countPlan i).vehicle = s.vehicle ∧
    (s.countPlan i).monitor = s.monitor ∧ (s.countPlan i).takeover = s.takeover ∧ (s.countPlan i).camera = s.camera ∧
    (s.countPlan i).guide = s.guide ∧ (s.countPlan i).chime = s.chime ∧ (s.countPlan i).status = s.status ∧
    (s.countPlan i).freeIx = s.freeIx ∧ (s.countPlan i).regs.run = s.regs.run ∧
    (s.countPlan i).regs.standby = s.regs.standby ∧ (s.countPlan i).regs.freeze = s.regs.freeze :=
  (entries_countPlan s i).frame

@[simp] theorem State.countShown_frame (s : State) (x : StreamId) :
    (s.countShown x).pending = s.pending ∧ (s.countShown x).runState = s.runState ∧
    (s.countShown x).settings = s.settings ∧ (s.countShown x).bookCopy = s.bookCopy ∧ (s.countShown x).book = s.book ∧
    (s.countShown x).linePin = s.linePin ∧
    (s.countShown x).chains = s.chains ∧ (s.countShown x).screens = s.screens ∧
    (s.countShown x).capLoad = s.capLoad ∧ (s.countShown x).blinkOn = s.blinkOn ∧
    (s.countShown x).blinkRunning = s.blinkRunning ∧ (s.countShown x).streams = s.streams ∧
    (s.countShown x).link = s.link ∧ (s.countShown x).vehicle = s.vehicle ∧ (s.countShown x).monitor = s.monitor ∧
    (s.countShown x).takeover = s.takeover ∧ (s.countShown x).camera = s.camera ∧ (s.countShown x).guide = s.guide ∧
    (s.countShown x).chime = s.chime ∧ (s.countShown x).status = s.status ∧ (s.countShown x).freeIx = s.freeIx ∧
    (s.countShown x).regs.run = s.regs.run ∧ (s.countShown x).regs.standby = s.regs.standby ∧
    (s.countShown x).regs.freeze = s.regs.freeze :=
  (entries_countShown s x).frame

@[simp] theorem State.faultChain_frame (s : State) (c : ChainId) (k : FaultCause) (a : Nat) :
    (s.faultChain c k a).pending = s.pending ∧ (s.faultChain c k a).runState = s.runState ∧
    (s.faultChain c k a).settings = s.settings ∧ (s.faultChain c k a).bookCopy = s.bookCopy ∧
    (s.faultChain c k a).book = s.book ∧
    (s.faultChain c k a).linePin = s.linePin ∧ (s.faultChain c k a).screens = s.screens ∧
    (s.faultChain c k a).capLoad = s.capLoad ∧ (s.faultChain c k a).blinkOn = s.blinkOn ∧
    (s.faultChain c k a).blinkRunning = s.blinkRunning ∧ (s.faultChain c k a).streams = s.streams ∧
    (s.faultChain c k a).link = s.link ∧ (s.faultChain c k a).vehicle = s.vehicle ∧
    (s.faultChain c k a).monitor = s.monitor ∧ (s.faultChain c k a).takeover = s.takeover ∧
    (s.faultChain c k a).camera = s.camera ∧ (s.faultChain c k a).guide = s.guide ∧
    (s.faultChain c k a).chime = s.chime ∧ (s.faultChain c k a).status = s.status ∧
    (s.faultChain c k a).regs.run = s.regs.run ∧ (s.faultChain c k a).regs.standby = s.regs.standby ∧
    (s.faultChain c k a).regs.freeze = s.regs.freeze :=
  (chained_faultChain s c k a).frame

@[simp] theorem State.rootReadError_frame (s : State) (c : ChainId) :
    (s.rootReadError c).pending = s.pending ∧ (s.rootReadError c).runState = s.runState ∧
    (s.rootReadError c).settings = s.settings ∧ (s.rootReadError c).bookCopy = s.bookCopy ∧
    (s.rootReadError c).book = s.book ∧
    (s.rootReadError c).linePin = s.linePin ∧ (s.rootReadError c).screens = s.screens ∧
    (s.rootReadError c).capLoad = s.capLoad ∧ (s.rootReadError c).blinkOn = s.blinkOn ∧
    (s.rootReadError c).blinkRunning = s.blinkRunning ∧ (s.rootReadError c).streams = s.streams ∧
    (s.rootReadError c).link = s.link ∧ (s.rootReadError c).vehicle = s.vehicle ∧
    (s.rootReadError c).monitor = s.monitor ∧ (s.rootReadError c).takeover = s.takeover ∧
    (s.rootReadError c).camera = s.camera ∧ (s.rootReadError c).guide = s.guide ∧
    (s.rootReadError c).chime = s.chime ∧ (s.rootReadError c).status = s.status ∧
    (s.rootReadError c).regs.run = s.regs.run ∧ (s.rootReadError c).regs.standby = s.regs.standby ∧
    (s.rootReadError c).regs.freeze = s.regs.freeze :=
  (chained_rootReadError s c).frame

@[simp] theorem State.statusWriteFailed_frame (s : State) (c : ChainId) (a : Nat) :
    (s.statusWriteFailed c a).pending = s.pending ∧ (s.statusWriteFailed c a).runState = s.runState ∧
    (s.statusWriteFailed c a).settings = s.settings ∧ (s.statusWriteFailed c a).bookCopy = s.bookCopy ∧
    (s.statusWriteFailed c a).book = s.book ∧
    (s.statusWriteFailed c a).linePin = s.linePin ∧ (s.statusWriteFailed c a).screens = s.screens ∧
    (s.statusWriteFailed c a).capLoad = s.capLoad ∧ (s.statusWriteFailed c a).blinkOn = s.blinkOn ∧
    (s.statusWriteFailed c a).blinkRunning = s.blinkRunning ∧ (s.statusWriteFailed c a).streams = s.streams ∧
    (s.statusWriteFailed c a).link = s.link ∧ (s.statusWriteFailed c a).vehicle = s.vehicle ∧
    (s.statusWriteFailed c a).monitor = s.monitor ∧ (s.statusWriteFailed c a).takeover = s.takeover ∧
    (s.statusWriteFailed c a).camera = s.camera ∧ (s.statusWriteFailed c a).guide = s.guide ∧
    (s.statusWriteFailed c a).chime = s.chime ∧ (s.statusWriteFailed c a).status = s.status ∧
    (s.statusWriteFailed c a).regs.run = s.regs.run ∧ (s.statusWriteFailed c a).regs.standby = s.regs.standby ∧
    (s.statusWriteFailed c a).regs.freeze = s.regs.freeze :=
  (chained_statusWriteFailed s c a).frame

@[simp] theorem State.abandon_frame (s : State) (c : ChainId) :
    (s.abandon c).pending = s.pending ∧ (s.abandon c).runState = s.runState ∧ (s.abandon c).settings = s.settings ∧
    (s.abandon c).bookCopy = s.bookCopy ∧
    (s.abandon c).book = s.book ∧ (s.abandon c).linePin = s.linePin ∧ (s.abandon c).screens = s.screens ∧
    (s.abandon c).capLoad = s.capLoad ∧ (s.abandon c).blinkOn = s.blinkOn ∧
    (s.abandon c).blinkRunning = s.blinkRunning ∧ (s.abandon c).streams = s.streams ∧ (s.abandon c).link = s.link ∧
    (s.abandon c).vehicle = s.vehicle ∧ (s.abandon c).monitor = s.monitor ∧ (s.abandon c).takeover = s.takeover ∧
    (s.abandon c).camera = s.camera ∧ (s.abandon c).guide = s.guide ∧ (s.abandon c).chime = s.chime ∧
    (s.abandon c).status = s.status ∧ (s.abandon c).regs.run = s.regs.run ∧
    (s.abandon c).regs.standby = s.regs.standby ∧ (s.abandon c).regs.freeze = s.regs.freeze :=
  (chained_abandon s c).frame

@[simp] theorem State.moveCursor_frame (s : State) (c : ChainId) (l : List Nat) :
    (s.moveCursor c l).pending = s.pending ∧ (s.moveCursor c l).runState = s.runState ∧
    (s.moveCursor c l).settings = s.settings ∧ (s.moveCursor c l).bookCopy = s.bookCopy ∧
    (s.moveCursor c l).book = s.book ∧
    (s.moveCursor c l).linePin = s.linePin ∧ (s.moveCursor c l).screens = s.screens ∧
    (s.moveCursor c l).capLoad = s.capLoad ∧ (s.moveCursor c l).blinkOn = s.blinkOn ∧
    (s.moveCursor c l).blinkRunning = s.blinkRunning ∧ (s.moveCursor c l).streams = s.streams ∧
    (s.moveCursor c l).link = s.link ∧ (s.moveCursor c l).vehicle = s.vehicle ∧
    (s.moveCursor c l).monitor = s.monitor ∧ (s.moveCursor c l).takeover = s.takeover ∧
    (s.moveCursor c l).camera = s.camera ∧ (s.moveCursor c l).guide = s.guide ∧ (s.moveCursor c l).chime = s.chime ∧
    (s.moveCursor c l).status = s.status ∧ (s.moveCursor c l).regs.run = s.regs.run ∧
    (s.moveCursor c l).regs.standby = s.regs.standby ∧ (s.moveCursor c l).regs.freeze = s.regs.freeze :=
  (chained_moveCursor s c l).frame

@[simp] theorem State.consume_frame (s : State) (c : ChainId) (l : List Hold) :
    (s.consume c l).pending = s.pending ∧ (s.consume c l).runState = s.runState ∧
    (s.consume c l).settings = s.settings ∧ (s.consume c l).bookCopy = s.bookCopy ∧ (s.consume c l).book = s.book ∧
    (s.consume c l).linePin = s.linePin ∧
    (s.consume c l).screens = s.screens ∧ (s.consume c l).capLoad = s.capLoad ∧ (s.consume c l).blinkOn = s.blinkOn ∧
    (s.consume c l).blinkRunning = s.blinkRunning ∧ (s.consume c l).streams = s.streams ∧
    (s.consume c l).link = s.link ∧ (s.consume c l).vehicle = s.vehicle ∧ (s.consume c l).monitor = s.monitor ∧
    (s.consume c l).takeover = s.takeover ∧ (s.consume c l).camera = s.camera ∧ (s.consume c l).guide = s.guide ∧
    (s.consume c l).chime = s.chime ∧ (s.consume c l).status = s.status ∧ (s.consume c l).regs.run = s.regs.run ∧
    (s.consume c l).regs.standby = s.regs.standby ∧ (s.consume c l).regs.freeze = s.regs.freeze :=
  (chained_consume s c l).frame

@[simp] theorem State.checkSerial_frame (s : State) (c : ChainId) (e : LinkErrs) :
    ((s.checkSerial c e).2).pending = s.pending ∧ ((s.checkSerial c e).2).runState = s.runState ∧
    ((s.checkSerial c e).2).settings = s.settings ∧ ((s.checkSerial c e).2).bookCopy = s.bookCopy ∧
    ((s.checkSerial c e).2).book = s.book ∧
    ((s.checkSerial c e).2).linePin = s.linePin ∧ ((s.checkSerial c e).2).screens = s.screens ∧
    ((s.checkSerial c e).2).capLoad = s.capLoad ∧ ((s.checkSerial c e).2).blinkOn = s.blinkOn ∧
    ((s.checkSerial c e).2).blinkRunning = s.blinkRunning ∧ ((s.checkSerial c e).2).streams = s.streams ∧
    ((s.checkSerial c e).2).link = s.link ∧ ((s.checkSerial c e).2).vehicle = s.vehicle ∧
    ((s.checkSerial c e).2).monitor = s.monitor ∧ ((s.checkSerial c e).2).takeover = s.takeover ∧
    ((s.checkSerial c e).2).camera = s.camera ∧ ((s.checkSerial c e).2).guide = s.guide ∧
    ((s.checkSerial c e).2).chime = s.chime ∧ ((s.checkSerial c e).2).status = s.status ∧
    ((s.checkSerial c e).2).regs.run = s.regs.run ∧ ((s.checkSerial c e).2).regs.standby = s.regs.standby ∧
    ((s.checkSerial c e).2).regs.freeze = s.regs.freeze :=
  (chained_checkSerial s c e).frame

@[simp] theorem State.pollWalk_frame (s : State) {β : Type} (rd : Reader β) (c : ChainId) (e : LinkErrs) :
    ((s.pollWalk rd c e).2.2).pending = s.pending ∧ ((s.pollWalk rd c e).2.2).runState = s.runState ∧
    ((s.pollWalk rd c e).2.2).settings = s.settings ∧ ((s.pollWalk rd c e).2.2).bookCopy = s.bookCopy ∧
    ((s.pollWalk rd c e).2.2).book = s.book ∧
    ((s.pollWalk rd c e).2.2).linePin = s.linePin ∧ ((s.pollWalk rd c e).2.2).screens = s.screens ∧
    ((s.pollWalk rd c e).2.2).capLoad = s.capLoad ∧ ((s.pollWalk rd c e).2.2).blinkOn = s.blinkOn ∧
    ((s.pollWalk rd c e).2.2).blinkRunning = s.blinkRunning ∧ ((s.pollWalk rd c e).2.2).streams = s.streams ∧
    ((s.pollWalk rd c e).2.2).link = s.link ∧ ((s.pollWalk rd c e).2.2).vehicle = s.vehicle ∧
    ((s.pollWalk rd c e).2.2).monitor = s.monitor ∧ ((s.pollWalk rd c e).2.2).takeover = s.takeover ∧
    ((s.pollWalk rd c e).2.2).camera = s.camera ∧ ((s.pollWalk rd c e).2.2).guide = s.guide ∧
    ((s.pollWalk rd c e).2.2).chime = s.chime ∧ ((s.pollWalk rd c e).2.2).status = s.status ∧
    ((s.pollWalk rd c e).2.2).regs.run = s.regs.run ∧ ((s.pollWalk rd c e).2.2).regs.standby = s.regs.standby ∧
    ((s.pollWalk rd c e).2.2).regs.freeze = s.regs.freeze :=
  (chained_pollWalk s rd c e).frame

@[simp] theorem State.sendPixel_frame (s : State) (i : ScreenId) :
    (s.sendPixel i).pending = s.pending ∧ (s.sendPixel i).runState = s.runState ∧
    (s.sendPixel i).settings = s.settings ∧ (s.sendPixel i).bookCopy = s.bookCopy ∧ (s.sendPixel i).book = s.book ∧
    (s.sendPixel i).linePin = s.linePin ∧
    (s.sendPixel i).mem = s.mem ∧ (s.sendPixel i).chains = s.chains ∧ (s.sendPixel i).holds = s.holds ∧
    (s.sendPixel i).capLoad = s.capLoad ∧ (s.sendPixel i).blinkOn = s.blinkOn ∧
    (s.sendPixel i).blinkRunning = s.blinkRunning ∧ (s.sendPixel i).streams = s.streams ∧
    (s.sendPixel i).link = s.link ∧ (s.sendPixel i).vehicle = s.vehicle ∧ (s.sendPixel i).monitor = s.monitor ∧
    (s.sendPixel i).takeover = s.takeover ∧ (s.sendPixel i).camera = s.camera ∧ (s.sendPixel i).guide = s.guide ∧
    (s.sendPixel i).chime = s.chime ∧ (s.sendPixel i).status = s.status ∧ (s.sendPixel i).freeIx = s.freeIx ∧
    (s.sendPixel i).regs.run = s.regs.run ∧ (s.sendPixel i).regs.standby = s.regs.standby ∧
    (s.sendPixel i).regs.freeze = s.regs.freeze := by
  refine ⟨?_, ?_, ?_, ?_, ?_, ?_, ?_, ?_, ?_, ?_, ?_, ?_, ?_, ?_, ?_, ?_, ?_, ?_, ?_, ?_, ?_, ?_, ?_, ?_, ?_⟩ <;>
  (unfold State.sendPixel; first | (simp; done) | rfl |
    ((try dsimp only); (repeat' split) <;> first | (simp; done) | rfl | (simp_all; done)))

@[simp] theorem State.finishRefresh_frame (s : State) (i : ScreenId) :
    (s.finishRefresh i).pending = s.pending ∧ (s.finishRefresh i).runState = s.runState ∧
    (s.finishRefresh i).settings = s.settings ∧ (s.finishRefresh i).bookCopy = s.bookCopy ∧
    (s.finishRefresh i).book = s.book ∧
    (s.finishRefresh i).linePin = s.linePin ∧ (s.finishRefresh i).mem = s.mem ∧
    (s.finishRefresh i).chains = s.chains ∧ (s.finishRefresh i).holds = s.holds ∧
    (s.finishRefresh i).capLoad = s.capLoad ∧ (s.finishRefresh i).blinkOn = s.blinkOn ∧
    (s.finishRefresh i).blinkRunning = s.blinkRunning ∧ (s.finishRefresh i).streams = s.streams ∧
    (s.finishRefresh i).link = s.link ∧ (s.finishRefresh i).vehicle = s.vehicle ∧
    (s.finishRefresh i).monitor = s.monitor ∧ (s.finishRefresh i).takeover = s.takeover ∧
    (s.finishRefresh i).camera = s.camera ∧ (s.finishRefresh i).guide = s.guide ∧
    (s.finishRefresh i).chime = s.chime ∧ (s.finishRefresh i).status = s.status ∧
    (s.finishRefresh i).freeIx = s.freeIx ∧ (s.finishRefresh i).regs.run = s.regs.run ∧
    (s.finishRefresh i).regs.standby = s.regs.standby ∧ (s.finishRefresh i).regs.freeze = s.regs.freeze := by
  have key : ∀ (n : Nat) (s : State),    (s.sendPixels i n).pending = s.pending ∧
    (s.sendPixels i n).runState = s.runState ∧     (s.sendPixels i n).settings = s.settings ∧
    (s.sendPixels i n).bookCopy = s.bookCopy ∧ (s.sendPixels i n).book = s.book ∧
        (s.sendPixels i n).linePin = s.linePin ∧ (s.sendPixels i n).mem = s.mem ∧ (s.sendPixels i n).chains = s.chains ∧     (s.sendPixels i n).holds = s.holds ∧ (s.sendPixels i n).capLoad = s.capLoad ∧     (s.sendPixels i n).blinkOn = s.blinkOn ∧ (s.sendPixels i n).blinkRunning = s.blinkRunning ∧     (s.sendPixels i n).streams = s.streams ∧ (s.sendPixels i n).link = s.link ∧     (s.sendPixels i n).vehicle = s.vehicle ∧ (s.sendPixels i n).monitor = s.monitor ∧     (s.sendPixels i n).takeover = s.takeover ∧ (s.sendPixels i n).camera = s.camera ∧     (s.sendPixels i n).guide = s.guide ∧ (s.sendPixels i n).chime = s.chime ∧ (s.sendPixels i n).status = s.status ∧     (s.sendPixels i n).freeIx = s.freeIx ∧ (s.sendPixels i n).regs.run = s.regs.run ∧     (s.sendPixels i n).regs.standby = s.regs.standby ∧ (s.sendPixels i n).regs.freeze = s.regs.freeze := by
    intro n
    induction n with
    | zero => intro s; exact ⟨rfl, rfl, rfl, rfl, rfl, rfl, rfl, rfl, rfl, rfl, rfl, rfl, rfl, rfl, rfl, rfl, rfl, rfl, rfl, rfl, rfl, rfl, rfl, rfl, rfl⟩
    | succ n ih => intro s; have := ih (s.sendPixel i); simpa [State.sendPixels] using this
  exact key _ s

@[simp] theorem State.setView_frame (s : State) (v : Option View) :
    (s.setView v).pending = s.pending ∧ (s.setView v).runState = s.runState ∧ (s.setView v).settings = s.settings ∧
    (s.setView v).bookCopy = s.bookCopy ∧
    (s.setView v).book = s.book ∧ (s.setView v).linePin = s.linePin ∧ (s.setView v).mem = s.mem ∧
    (s.setView v).chains = s.chains ∧ (s.setView v).holds = s.holds ∧ (s.setView v).screens = s.screens ∧
    (s.setView v).capLoad = s.capLoad ∧ (s.setView v).blinkOn = s.blinkOn ∧
    (s.setView v).blinkRunning = s.blinkRunning ∧ (s.setView v).streams = s.streams ∧ (s.setView v).link = s.link ∧
    (s.setView v).vehicle = s.vehicle ∧ (s.setView v).monitor = s.monitor ∧ (s.setView v).camera = s.camera ∧
    (s.setView v).guide = s.guide ∧ (s.setView v).chime = s.chime ∧ (s.setView v).status = s.status ∧
    (s.setView v).freeIx = s.freeIx ∧ (s.setView v).regs.run = s.regs.run ∧
    (s.setView v).regs.standby = s.regs.standby ∧ (s.setView v).regs.freeze = s.regs.freeze := by
  refine ⟨?_, ?_, ?_, ?_, ?_, ?_, ?_, ?_, ?_, ?_, ?_, ?_, ?_, ?_, ?_, ?_, ?_, ?_, ?_, ?_, ?_, ?_, ?_, ?_, ?_⟩ <;>
  (unfold State.setView; first | (simp; done) | rfl |
    ((try dsimp only); (repeat' split) <;> first | (simp; done) | rfl | (simp_all; done)))

@[simp] theorem State.loseView_frame (s : State) :
    s.loseView.pending = s.pending ∧ s.loseView.runState = s.runState ∧ s.loseView.settings = s.settings ∧
    s.loseView.bookCopy = s.bookCopy ∧
    s.loseView.book = s.book ∧ s.loseView.linePin = s.linePin ∧ s.loseView.mem = s.mem ∧
    s.loseView.chains = s.chains ∧ s.loseView.holds = s.holds ∧ s.loseView.screens = s.screens ∧
    s.loseView.capLoad = s.capLoad ∧ s.loseView.blinkOn = s.blinkOn ∧ s.loseView.blinkRunning = s.blinkRunning ∧
    s.loseView.streams = s.streams ∧ s.loseView.link = s.link ∧ s.loseView.vehicle = s.vehicle ∧
    s.loseView.monitor = s.monitor ∧ s.loseView.camera = s.camera ∧ s.loseView.guide = s.guide ∧
    s.loseView.chime = s.chime ∧ s.loseView.status = s.status ∧ s.loseView.freeIx = s.freeIx ∧
    s.loseView.regs.run = s.regs.run ∧ s.loseView.regs.standby = s.regs.standby ∧
    s.loseView.regs.freeze = s.regs.freeze := by
  refine ⟨?_, ?_, ?_, ?_, ?_, ?_, ?_, ?_, ?_, ?_, ?_, ?_, ?_, ?_, ?_, ?_, ?_, ?_, ?_, ?_, ?_, ?_, ?_, ?_, ?_⟩ <;>
  (unfold State.loseView; first | (simp; done) | rfl |
    ((try dsimp only); (repeat' split) <;> first | (simp; done) | rfl | (simp_all; done)))

@[simp] theorem State.waitView_frame (s : State) :
    s.waitView.pending = s.pending ∧ s.waitView.runState = s.runState ∧ s.waitView.settings = s.settings ∧
    s.waitView.bookCopy = s.bookCopy ∧
    s.waitView.book = s.book ∧ s.waitView.linePin = s.linePin ∧ s.waitView.mem = s.mem ∧
    s.waitView.chains = s.chains ∧ s.waitView.holds = s.holds ∧ s.waitView.screens = s.screens ∧
    s.waitView.capLoad = s.capLoad ∧ s.waitView.blinkOn = s.blinkOn ∧ s.waitView.blinkRunning = s.blinkRunning ∧
    s.waitView.streams = s.streams ∧ s.waitView.link = s.link ∧ s.waitView.vehicle = s.vehicle ∧
    s.waitView.monitor = s.monitor ∧ s.waitView.camera = s.camera ∧ s.waitView.guide = s.guide ∧
    s.waitView.chime = s.chime ∧ s.waitView.status = s.status ∧ s.waitView.freeIx = s.freeIx ∧
    s.waitView.regs.run = s.regs.run ∧ s.waitView.regs.standby = s.regs.standby ∧
    s.waitView.regs.freeze = s.regs.freeze := by
  refine ⟨?_, ?_, ?_, ?_, ?_, ?_, ?_, ?_, ?_, ?_, ?_, ?_, ?_, ?_, ?_, ?_, ?_, ?_, ?_, ?_, ?_, ?_, ?_, ?_, ?_⟩ <;>
  (unfold State.waitView; first | (simp; done) | rfl |
    ((try dsimp only); (repeat' split) <;> first | (simp; done) | rfl | (simp_all; done)))

@[simp] theorem State.liveView_frame (s : State) :
    s.liveView.pending = s.pending ∧ s.liveView.runState = s.runState ∧ s.liveView.settings = s.settings ∧
    s.liveView.bookCopy = s.bookCopy ∧
    s.liveView.book = s.book ∧ s.liveView.linePin = s.linePin ∧ s.liveView.mem = s.mem ∧
    s.liveView.chains = s.chains ∧ s.liveView.holds = s.holds ∧ s.liveView.screens = s.screens ∧
    s.liveView.capLoad = s.capLoad ∧ s.liveView.blinkOn = s.blinkOn ∧ s.liveView.blinkRunning = s.blinkRunning ∧
    s.liveView.streams = s.streams ∧ s.liveView.link = s.link ∧ s.liveView.vehicle = s.vehicle ∧
    s.liveView.monitor = s.monitor ∧ s.liveView.camera = s.camera ∧ s.liveView.guide = s.guide ∧
    s.liveView.chime = s.chime ∧ s.liveView.status = s.status ∧ s.liveView.freeIx = s.freeIx ∧
    s.liveView.regs.run = s.regs.run ∧ s.liveView.regs.standby = s.regs.standby ∧
    s.liveView.regs.freeze = s.regs.freeze := by
  refine ⟨?_, ?_, ?_, ?_, ?_, ?_, ?_, ?_, ?_, ?_, ?_, ?_, ?_, ?_, ?_, ?_, ?_, ?_, ?_, ?_, ?_, ?_, ?_, ?_, ?_⟩ <;>
  (unfold State.liveView; first | (simp; done) | rfl |
    ((try dsimp only); (repeat' split) <;> first | (simp; done) | rfl | (simp_all; done)))

@[simp] theorem State.enableCapture_frame (s : State) :
    s.enableCapture.pending = s.pending ∧ s.enableCapture.runState = s.runState ∧
    s.enableCapture.settings = s.settings ∧ s.enableCapture.bookCopy = s.bookCopy ∧ s.enableCapture.book = s.book ∧
    s.enableCapture.linePin = s.linePin ∧
    s.enableCapture.mem = s.mem ∧ s.enableCapture.chains = s.chains ∧ s.enableCapture.holds = s.holds ∧
    s.enableCapture.screens = s.screens ∧ s.enableCapture.blinkOn = s.blinkOn ∧
    s.enableCapture.blinkRunning = s.blinkRunning ∧ s.enableCapture.streams = s.streams ∧
    s.enableCapture.link = s.link ∧ s.enableCapture.vehicle = s.vehicle ∧ s.enableCapture.monitor = s.monitor ∧
    s.enableCapture.guide = s.guide ∧ s.enableCapture.chime = s.chime ∧ s.enableCapture.status = s.status ∧
    s.enableCapture.freeIx = s.freeIx ∧ s.enableCapture.regs.run = s.regs.run ∧
    s.enableCapture.regs.standby = s.regs.standby ∧ s.enableCapture.regs.freeze = s.regs.freeze := by
  refine ⟨?_, ?_, ?_, ?_, ?_, ?_, ?_, ?_, ?_, ?_, ?_, ?_, ?_, ?_, ?_, ?_, ?_, ?_, ?_, ?_, ?_, ?_, ?_⟩ <;>
  (unfold State.enableCapture; first | (simp; done) | rfl |
    ((try dsimp only); (repeat' split) <;> first | (simp; done) | rfl | (simp_all; done)))

@[simp] theorem State.disableCapture_frame (s : State) (b : Bool) :
    (s.disableCapture b).pending = s.pending ∧ (s.disableCapture b).runState = s.runState ∧
    (s.disableCapture b).settings = s.settings ∧ (s.disableCapture b).bookCopy = s.bookCopy ∧
    (s.disableCapture b).book = s.book ∧
    (s.disableCapture b).linePin = s.linePin ∧ (s.disableCapture b).mem = s.mem ∧
    (s.disableCapture b).chains = s.chains ∧ (s.disableCapture b).holds = s.holds ∧
    (s.disableCapture b).screens = s.screens ∧ (s.disableCapture b).blinkOn = s.blinkOn ∧
    (s.disableCapture b).blinkRunning = s.blinkRunning ∧ (s.disableCapture b).streams = s.streams ∧
    (s.disableCapture b).link = s.link ∧ (s.disableCapture b).vehicle = s.vehicle ∧
    (s.disableCapture b).monitor = s.monitor ∧ (s.disableCapture b).guide = s.guide ∧
    (s.disableCapture b).chime = s.chime ∧ (s.disableCapture b).status = s.status ∧
    (s.disableCapture b).freeIx = s.freeIx ∧ (s.disableCapture b).regs.run = s.regs.run ∧
    (s.disableCapture b).regs.standby = s.regs.standby ∧ (s.disableCapture b).regs.freeze = s.regs.freeze := by
  refine ⟨?_, ?_, ?_, ?_, ?_, ?_, ?_, ?_, ?_, ?_, ?_, ?_, ?_, ?_, ?_, ?_, ?_, ?_, ?_, ?_, ?_, ?_, ?_⟩ <;>
  (unfold State.disableCapture; first | (simp; done) | rfl |
    ((try dsimp only); (repeat' split) <;> first | (simp; done) | rfl | (simp_all; done)))

@[simp] theorem State.judgeCapture_frame (s : State) :
    s.judgeCapture.pending = s.pending ∧ s.judgeCapture.runState = s.runState ∧
    s.judgeCapture.settings = s.settings ∧ s.judgeCapture.bookCopy = s.bookCopy ∧ s.judgeCapture.book = s.book ∧
    s.judgeCapture.linePin = s.linePin ∧
    s.judgeCapture.mem = s.mem ∧ s.judgeCapture.chains = s.chains ∧ s.judgeCapture.holds = s.holds ∧
    s.judgeCapture.screens = s.screens ∧ s.judgeCapture.blinkOn = s.blinkOn ∧
    s.judgeCapture.blinkRunning = s.blinkRunning ∧ s.judgeCapture.streams = s.streams ∧
    s.judgeCapture.link = s.link ∧ s.judgeCapture.vehicle = s.vehicle ∧ s.judgeCapture.monitor = s.monitor ∧
    s.judgeCapture.guide = s.guide ∧ s.judgeCapture.chime = s.chime ∧ s.judgeCapture.status = s.status ∧
    s.judgeCapture.freeIx = s.freeIx ∧ s.judgeCapture.regs.run = s.regs.run ∧
    s.judgeCapture.regs.standby = s.regs.standby ∧ s.judgeCapture.regs.freeze = s.regs.freeze := by
  refine ⟨?_, ?_, ?_, ?_, ?_, ?_, ?_, ?_, ?_, ?_, ?_, ?_, ?_, ?_, ?_, ?_, ?_, ?_, ?_, ?_, ?_, ?_, ?_⟩ <;>
  (unfold State.judgeCapture; first | (simp; done) | rfl |
    ((try dsimp only); (repeat' split) <;> first | (simp; done) | rfl | (simp_all; done)))

@[simp] theorem State.rotateBuffers_frame (s : State) (b : Bool) :
    (s.rotateBuffers b).pending = s.pending ∧ (s.rotateBuffers b).runState = s.runState ∧
    (s.rotateBuffers b).settings = s.settings ∧ (s.rotateBuffers b).bookCopy = s.bookCopy ∧
    (s.rotateBuffers b).book = s.book ∧
    (s.rotateBuffers b).linePin = s.linePin ∧ (s.rotateBuffers b).mem = s.mem ∧
    (s.rotateBuffers b).chains = s.chains ∧ (s.rotateBuffers b).holds = s.holds ∧
    (s.rotateBuffers b).screens = s.screens ∧ (s.rotateBuffers b).capLoad = s.capLoad ∧
    (s.rotateBuffers b).blinkOn = s.blinkOn ∧ (s.rotateBuffers b).blinkRunning = s.blinkRunning ∧
    (s.rotateBuffers b).streams = s.streams ∧ (s.rotateBuffers b).link = s.link ∧
    (s.rotateBuffers b).vehicle = s.vehicle ∧ (s.rotateBuffers b).monitor = s.monitor ∧
    (s.rotateBuffers b).guide = s.guide ∧ (s.rotateBuffers b).chime = s.chime ∧
    (s.rotateBuffers b).status = s.status ∧ (s.rotateBuffers b).freeIx = s.freeIx ∧
    (s.rotateBuffers b).regs.run = s.regs.run ∧ (s.rotateBuffers b).regs.standby = s.regs.standby ∧
    (s.rotateBuffers b).regs.freeze = s.regs.freeze := by
  refine ⟨?_, ?_, ?_, ?_, ?_, ?_, ?_, ?_, ?_, ?_, ?_, ?_, ?_, ?_, ?_, ?_, ?_, ?_, ?_, ?_, ?_, ?_, ?_, ?_⟩ <;>
  (unfold State.rotateBuffers; first | (simp; done) | rfl |
    ((try dsimp only); (repeat' split) <;> first | (simp; done) | rfl | (simp_all; done)))

@[simp] theorem State.cameraWork_frame (s : State) :
    s.cameraWork.pending = s.pending ∧ s.cameraWork.runState = s.runState ∧ s.cameraWork.settings = s.settings ∧
    s.cameraWork.bookCopy = s.bookCopy ∧
    s.cameraWork.book = s.book ∧ s.cameraWork.linePin = s.linePin ∧ s.cameraWork.mem = s.mem ∧
    s.cameraWork.chains = s.chains ∧ s.cameraWork.holds = s.holds ∧ s.cameraWork.screens = s.screens ∧
    s.cameraWork.capLoad = s.capLoad ∧ s.cameraWork.blinkOn = s.blinkOn ∧
    s.cameraWork.blinkRunning = s.blinkRunning ∧ s.cameraWork.streams = s.streams ∧ s.cameraWork.link = s.link ∧
    s.cameraWork.vehicle = s.vehicle ∧ s.cameraWork.monitor = s.monitor ∧ s.cameraWork.chime = s.chime ∧
    s.cameraWork.status = s.status ∧ s.cameraWork.freeIx = s.freeIx ∧ s.cameraWork.regs.run = s.regs.run ∧
    s.cameraWork.regs.standby = s.regs.standby ∧ s.cameraWork.regs.freeze = s.regs.freeze := by
  refine ⟨?_, ?_, ?_, ?_, ?_, ?_, ?_, ?_, ?_, ?_, ?_, ?_, ?_, ?_, ?_, ?_, ?_, ?_, ?_, ?_, ?_, ?_, ?_⟩ <;>
  (unfold State.cameraWork; first | (simp; done) | rfl |
    ((try dsimp only); (repeat' split) <;> first | (simp; done) | rfl | (simp_all; done)))

@[simp] theorem State.settleMode_frame (s : State) (i : ScreenId) :
    (s.settleMode i).pending = s.pending ∧ (s.settleMode i).runState = s.runState ∧
    (s.settleMode i).settings = s.settings ∧ (s.settleMode i).bookCopy = s.bookCopy ∧ (s.settleMode i).book = s.book ∧
    (s.settleMode i).linePin = s.linePin ∧
    (s.settleMode i).mem = s.mem ∧ (s.settleMode i).chains = s.chains ∧ (s.settleMode i).holds = s.holds ∧
    (s.settleMode i).capLoad = s.capLoad ∧ (s.settleMode i).blinkOn = s.blinkOn ∧
    (s.settleMode i).blinkRunning = s.blinkRunning ∧ (s.settleMode i).streams = s.streams ∧
    (s.settleMode i).link = s.link ∧ (s.settleMode i).vehicle = s.vehicle ∧ (s.settleMode i).monitor = s.monitor ∧
    (s.settleMode i).takeover = s.takeover ∧ (s.settleMode i).camera = s.camera ∧ (s.settleMode i).guide = s.guide ∧
    (s.settleMode i).chime = s.chime ∧ (s.settleMode i).status = s.status ∧ (s.settleMode i).freeIx = s.freeIx ∧
    (s.settleMode i).regs.run = s.regs.run ∧ (s.settleMode i).regs.standby = s.regs.standby ∧
    (s.settleMode i).regs.freeze = s.regs.freeze := by
  refine ⟨?_, ?_, ?_, ?_, ?_, ?_, ?_, ?_, ?_, ?_, ?_, ?_, ?_, ?_, ?_, ?_, ?_, ?_, ?_, ?_, ?_, ?_, ?_, ?_, ?_⟩ <;>
  (unfold State.settleMode; first | (simp; done) | rfl |
    ((try dsimp only); (repeat' split) <;> first | (simp; done) | rfl | (simp_all; done)))

@[simp] theorem State.admit_frame (s : State) (i : ScreenId) :
    (s.admission i).pending = s.pending ∧ (s.admission i).runState = s.runState ∧
    (s.admission i).settings = s.settings ∧ (s.admission i).bookCopy = s.bookCopy ∧
    (s.admission i).book = s.book ∧ (s.admission i).linePin = s.linePin ∧ (s.admission i).chains = s.chains ∧
    (s.admission i).capLoad = s.capLoad ∧ (s.admission i).blinkOn = s.blinkOn ∧ (s.admission i).blinkRunning = s.blinkRunning ∧
    (s.admission i).streams = s.streams ∧ (s.admission i).link = s.link ∧ (s.admission i).vehicle = s.vehicle ∧
    (s.admission i).monitor = s.monitor ∧ (s.admission i).takeover = s.takeover ∧ (s.admission i).camera = s.camera ∧
    (s.admission i).guide = s.guide ∧ (s.admission i).chime = s.chime ∧ (s.admission i).status = s.status ∧
    (s.admission i).freeIx = s.freeIx ∧ (s.admission i).regs.run = s.regs.run ∧ (s.admission i).regs.standby = s.regs.standby ∧
    (s.admission i).regs.freeze = s.regs.freeze := by
  refine ⟨?_, ?_, ?_, ?_, ?_, ?_, ?_, ?_, ?_, ?_, ?_, ?_, ?_, ?_, ?_, ?_, ?_, ?_, ?_, ?_, ?_, ?_, ?_⟩ <;>
  (unfold State.admission; first | (simp; done) | rfl |
    ((try dsimp only); (repeat' split) <;> first | (simp; done) | rfl | (simp_all; done)))

@[simp] theorem State.setPlan_frame (s : State) (i : ScreenId) (p : Option Plan) :
    (s.setPlan i p).pending = s.pending ∧ (s.setPlan i p).runState = s.runState ∧
    (s.setPlan i p).settings = s.settings ∧ (s.setPlan i p).bookCopy = s.bookCopy ∧ (s.setPlan i p).book = s.book ∧
    (s.setPlan i p).linePin = s.linePin ∧
    (s.setPlan i p).mem = s.mem ∧ (s.setPlan i p).chains = s.chains ∧ (s.setPlan i p).holds = s.holds ∧
    (s.setPlan i p).capLoad = s.capLoad ∧ (s.setPlan i p).blinkOn = s.blinkOn ∧
    (s.setPlan i p).blinkRunning = s.blinkRunning ∧ (s.setPlan i p).streams = s.streams ∧
    (s.setPlan i p).link = s.link ∧ (s.setPlan i p).vehicle = s.vehicle ∧ (s.setPlan i p).monitor = s.monitor ∧
    (s.setPlan i p).takeover = s.takeover ∧ (s.setPlan i p).camera = s.camera ∧ (s.setPlan i p).guide = s.guide ∧
    (s.setPlan i p).chime = s.chime ∧ (s.setPlan i p).status = s.status ∧ (s.setPlan i p).freeIx = s.freeIx ∧
    (s.setPlan i p).regs.run = s.regs.run ∧ (s.setPlan i p).regs.standby = s.regs.standby ∧
    (s.setPlan i p).regs.freeze = s.regs.freeze := by
  refine ⟨?_, ?_, ?_, ?_, ?_, ?_, ?_, ?_, ?_, ?_, ?_, ?_, ?_, ?_, ?_, ?_, ?_, ?_, ?_, ?_, ?_, ?_, ?_, ?_, ?_⟩ <;>
  (unfold State.setPlan; first | (simp; done) | rfl |
    ((try dsimp only); (repeat' split) <;> first | (simp; done) | rfl | (simp_all; done)))

@[simp] theorem State.takePlans_frame (s : State) (i : ScreenId) (l : List (Handed PlanBody)) (b : Bool) :
    (s.takePlans i l b).pending = s.pending ∧ (s.takePlans i l b).runState = s.runState ∧
    (s.takePlans i l b).settings = s.settings ∧ (s.takePlans i l b).bookCopy = s.bookCopy ∧
    (s.takePlans i l b).book = s.book ∧
    (s.takePlans i l b).linePin = s.linePin ∧ (s.takePlans i l b).capLoad = s.capLoad ∧
    (s.takePlans i l b).blinkOn = s.blinkOn ∧ (s.takePlans i l b).blinkRunning = s.blinkRunning ∧
    (s.takePlans i l b).streams = s.streams ∧ (s.takePlans i l b).link = s.link ∧
    (s.takePlans i l b).vehicle = s.vehicle ∧ (s.takePlans i l b).monitor = s.monitor ∧
    (s.takePlans i l b).takeover = s.takeover ∧ (s.takePlans i l b).camera = s.camera ∧
    (s.takePlans i l b).guide = s.guide ∧ (s.takePlans i l b).chime = s.chime ∧
    (s.takePlans i l b).status = s.status ∧ (s.takePlans i l b).regs.run = s.regs.run ∧
    (s.takePlans i l b).regs.standby = s.regs.standby ∧ (s.takePlans i l b).regs.freeze = s.regs.freeze := by
  refine ⟨?_, ?_, ?_, ?_, ?_, ?_, ?_, ?_, ?_, ?_, ?_, ?_, ?_, ?_, ?_, ?_, ?_, ?_, ?_, ?_, ?_⟩ <;>
  (unfold State.takePlans; first | (simp; done) | rfl |
    ((try dsimp only); (repeat' split) <;> first | (simp; done) | rfl | (simp_all; done)))

@[simp] theorem State.planAdvance_frame (s : State) (i : ScreenId) (e : LinkErrs) :
    (s.planAdvance i e).pending = s.pending ∧ (s.planAdvance i e).runState = s.runState ∧
    (s.planAdvance i e).settings = s.settings ∧ (s.planAdvance i e).bookCopy = s.bookCopy ∧
    (s.planAdvance i e).book = s.book ∧
    (s.planAdvance i e).linePin = s.linePin ∧ (s.planAdvance i e).capLoad = s.capLoad ∧
    (s.planAdvance i e).blinkOn = s.blinkOn ∧ (s.planAdvance i e).blinkRunning = s.blinkRunning ∧
    (s.planAdvance i e).streams = s.streams ∧ (s.planAdvance i e).link = s.link ∧
    (s.planAdvance i e).vehicle = s.vehicle ∧ (s.planAdvance i e).monitor = s.monitor ∧
    (s.planAdvance i e).takeover = s.takeover ∧ (s.planAdvance i e).camera = s.camera ∧
    (s.planAdvance i e).guide = s.guide ∧ (s.planAdvance i e).chime = s.chime ∧
    (s.planAdvance i e).status = s.status ∧ (s.planAdvance i e).regs.run = s.regs.run ∧
    (s.planAdvance i e).regs.standby = s.regs.standby ∧ (s.planAdvance i e).regs.freeze = s.regs.freeze := by
  refine ⟨?_, ?_, ?_, ?_, ?_, ?_, ?_, ?_, ?_, ?_, ?_, ?_, ?_, ?_, ?_, ?_, ?_, ?_, ?_, ?_, ?_⟩ <;>
  (unfold State.planAdvance; first | (simp; done) | rfl |
    ((try dsimp only); (repeat' split) <;> first | (simp; done) | rfl | (simp_all; done)))

@[simp] theorem State.consumeFrames_frame (s : State) (x : StreamId) (l : List Dealt) :
    (s.consumeFrames x l).pending = s.pending ∧ (s.consumeFrames x l).runState = s.runState ∧
    (s.consumeFrames x l).settings = s.settings ∧ (s.consumeFrames x l).bookCopy = s.bookCopy ∧
    (s.consumeFrames x l).book = s.book ∧
    (s.consumeFrames x l).linePin = s.linePin ∧ (s.consumeFrames x l).screens = s.screens ∧
    (s.consumeFrames x l).capLoad = s.capLoad ∧ (s.consumeFrames x l).blinkOn = s.blinkOn ∧
    (s.consumeFrames x l).blinkRunning = s.blinkRunning ∧ (s.consumeFrames x l).link = s.link ∧
    (s.consumeFrames x l).vehicle = s.vehicle ∧ (s.consumeFrames x l).monitor = s.monitor ∧
    (s.consumeFrames x l).takeover = s.takeover ∧ (s.consumeFrames x l).camera = s.camera ∧
    (s.consumeFrames x l).guide = s.guide ∧ (s.consumeFrames x l).chime = s.chime ∧
    (s.consumeFrames x l).status = s.status ∧ (s.consumeFrames x l).regs.run = s.regs.run ∧
    (s.consumeFrames x l).regs.standby = s.regs.standby ∧ (s.consumeFrames x l).regs.freeze = s.regs.freeze := by
  refine ⟨?_, ?_, ?_, ?_, ?_, ?_, ?_, ?_, ?_, ?_, ?_, ?_, ?_, ?_, ?_, ?_, ?_, ?_, ?_, ?_, ?_⟩ <;>
  (unfold State.consumeFrames; first | (simp; done) | rfl |
    ((try dsimp only); (repeat' split) <;> first | (simp; done) | rfl | (simp_all; done)))

@[simp] theorem State.restartStream_frame (s : State) (x : StreamId) :
    (s.restartStream x).pending = s.pending ∧ (s.restartStream x).runState = s.runState ∧
    (s.restartStream x).settings = s.settings ∧ (s.restartStream x).bookCopy = s.bookCopy ∧
    (s.restartStream x).book = s.book ∧
    (s.restartStream x).linePin = s.linePin ∧ (s.restartStream x).chains = s.chains ∧
    (s.restartStream x).screens = s.screens ∧ (s.restartStream x).capLoad = s.capLoad ∧
    (s.restartStream x).blinkOn = s.blinkOn ∧ (s.restartStream x).blinkRunning = s.blinkRunning ∧
    (s.restartStream x).link = s.link ∧ (s.restartStream x).vehicle = s.vehicle ∧
    (s.restartStream x).monitor = s.monitor ∧ (s.restartStream x).takeover = s.takeover ∧
    (s.restartStream x).camera = s.camera ∧ (s.restartStream x).guide = s.guide ∧
    (s.restartStream x).chime = s.chime ∧ (s.restartStream x).status = s.status ∧
    (s.restartStream x).freeIx = s.freeIx ∧ (s.restartStream x).regs.run = s.regs.run ∧
    (s.restartStream x).regs.standby = s.regs.standby ∧ (s.restartStream x).regs.freeze = s.regs.freeze := by
  refine ⟨?_, ?_, ?_, ?_, ?_, ?_, ?_, ?_, ?_, ?_, ?_, ?_, ?_, ?_, ?_, ?_, ?_, ?_, ?_, ?_, ?_, ?_, ?_⟩ <;>
  (unfold State.restartStream; first | (simp; done) | rfl |
    ((try dsimp only); (repeat' split) <;> first | (simp; done) | rfl | (simp_all; done)))

@[simp] theorem State.stopStream_frame (s : State) (x : StreamId) :
    (s.stopStream x).pending = s.pending ∧ (s.stopStream x).runState = s.runState ∧
    (s.stopStream x).settings = s.settings ∧ (s.stopStream x).bookCopy = s.bookCopy ∧ (s.stopStream x).book = s.book ∧
    (s.stopStream x).linePin = s.linePin ∧
    (s.stopStream x).screens = s.screens ∧ (s.stopStream x).capLoad = s.capLoad ∧
    (s.stopStream x).blinkOn = s.blinkOn ∧ (s.stopStream x).blinkRunning = s.blinkRunning ∧
    (s.stopStream x).link = s.link ∧ (s.stopStream x).vehicle = s.vehicle ∧ (s.stopStream x).monitor = s.monitor ∧
    (s.stopStream x).takeover = s.takeover ∧ (s.stopStream x).camera = s.camera ∧ (s.stopStream x).guide = s.guide ∧
    (s.stopStream x).chime = s.chime ∧ (s.stopStream x).status = s.status ∧ (s.stopStream x).regs.run = s.regs.run ∧
    (s.stopStream x).regs.standby = s.regs.standby ∧ (s.stopStream x).regs.freeze = s.regs.freeze := by
  refine ⟨?_, ?_, ?_, ?_, ?_, ?_, ?_, ?_, ?_, ?_, ?_, ?_, ?_, ?_, ?_, ?_, ?_, ?_, ?_, ?_, ?_⟩ <;>
  (unfold State.stopStream; first | (simp; done) | rfl |
    ((try dsimp only); (repeat' split) <;> first | (simp; done) | rfl | (simp_all; done)))

@[simp] theorem State.workPlaying_frame (s : State) (x : StreamId) (p : Nat) (l : List (Handed Frame)) (w : Option WalkEnd) :
    (s.workPlaying x p l w).pending = s.pending ∧ (s.workPlaying x p l w).runState = s.runState ∧
    (s.workPlaying x p l w).settings = s.settings ∧ (s.workPlaying x p l w).bookCopy = s.bookCopy ∧
    (s.workPlaying x p l w).book = s.book ∧
    (s.workPlaying x p l w).linePin = s.linePin ∧ (s.workPlaying x p l w).screens = s.screens ∧
    (s.workPlaying x p l w).capLoad = s.capLoad ∧ (s.workPlaying x p l w).blinkOn = s.blinkOn ∧
    (s.workPlaying x p l w).blinkRunning = s.blinkRunning ∧ (s.workPlaying x p l w).link = s.link ∧
    (s.workPlaying x p l w).vehicle = s.vehicle ∧ (s.workPlaying x p l w).monitor = s.monitor ∧
    (s.workPlaying x p l w).takeover = s.takeover ∧ (s.workPlaying x p l w).camera = s.camera ∧
    (s.workPlaying x p l w).guide = s.guide ∧ (s.workPlaying x p l w).chime = s.chime ∧
    (s.workPlaying x p l w).status = s.status ∧ (s.workPlaying x p l w).regs.run = s.regs.run ∧
    (s.workPlaying x p l w).regs.standby = s.regs.standby ∧ (s.workPlaying x p l w).regs.freeze = s.regs.freeze := by
  refine ⟨?_, ?_, ?_, ?_, ?_, ?_, ?_, ?_, ?_, ?_, ?_, ?_, ?_, ?_, ?_, ?_, ?_, ?_, ?_, ?_, ?_⟩ <;>
  (unfold State.workPlaying; first | (simp; done) | rfl |
    ((try dsimp only); (repeat' split) <;> first | (simp; done) | rfl | (simp_all; done)))

@[simp] theorem State.workPriming_frame (s : State) (x : StreamId) (l : List (Handed Frame)) :
    (s.workPriming x l).pending = s.pending ∧ (s.workPriming x l).runState = s.runState ∧
    (s.workPriming x l).settings = s.settings ∧ (s.workPriming x l).bookCopy = s.bookCopy ∧
    (s.workPriming x l).book = s.book ∧
    (s.workPriming x l).linePin = s.linePin ∧ (s.workPriming x l).screens = s.screens ∧
    (s.workPriming x l).capLoad = s.capLoad ∧ (s.workPriming x l).blinkOn = s.blinkOn ∧
    (s.workPriming x l).blinkRunning = s.blinkRunning ∧ (s.workPriming x l).link = s.link ∧
    (s.workPriming x l).vehicle = s.vehicle ∧ (s.workPriming x l).monitor = s.monitor ∧
    (s.workPriming x l).takeover = s.takeover ∧ (s.workPriming x l).camera = s.camera ∧
    (s.workPriming x l).guide = s.guide ∧ (s.workPriming x l).chime = s.chime ∧
    (s.workPriming x l).status = s.status ∧ (s.workPriming x l).regs.run = s.regs.run ∧
    (s.workPriming x l).regs.standby = s.regs.standby ∧ (s.workPriming x l).regs.freeze = s.regs.freeze := by
  refine ⟨?_, ?_, ?_, ?_, ?_, ?_, ?_, ?_, ?_, ?_, ?_, ?_, ?_, ?_, ?_, ?_, ?_, ?_, ?_, ?_, ?_⟩ <;>
  (unfold State.workPriming; first | (simp; done) | rfl |
    ((try dsimp only); (repeat' split) <;> first | (simp; done) | rfl | (simp_all; done)))

@[simp] theorem State.setStreamState_frame (s : State) (x : StreamId) (t : StreamState) :
    (s.setStreamState x t).pending = s.pending ∧ (s.setStreamState x t).runState = s.runState ∧
    (s.setStreamState x t).settings = s.settings ∧ (s.setStreamState x t).bookCopy = s.bookCopy ∧
    (s.setStreamState x t).book = s.book ∧
    (s.setStreamState x t).linePin = s.linePin ∧ (s.setStreamState x t).mem = s.mem ∧
    (s.setStreamState x t).chains = s.chains ∧ (s.setStreamState x t).holds = s.holds ∧
    (s.setStreamState x t).screens = s.screens ∧ (s.setStreamState x t).capLoad = s.capLoad ∧
    (s.setStreamState x t).blinkOn = s.blinkOn ∧ (s.setStreamState x t).blinkRunning = s.blinkRunning ∧
    (s.setStreamState x t).link = s.link ∧ (s.setStreamState x t).vehicle = s.vehicle ∧
    (s.setStreamState x t).monitor = s.monitor ∧ (s.setStreamState x t).takeover = s.takeover ∧
    (s.setStreamState x t).camera = s.camera ∧ (s.setStreamState x t).guide = s.guide ∧
    (s.setStreamState x t).chime = s.chime ∧ (s.setStreamState x t).status = s.status ∧
    (s.setStreamState x t).freeIx = s.freeIx ∧ (s.setStreamState x t).regs.run = s.regs.run ∧
    (s.setStreamState x t).regs.standby = s.regs.standby ∧ (s.setStreamState x t).regs.freeze = s.regs.freeze := by
  refine ⟨?_, ?_, ?_, ?_, ?_, ?_, ?_, ?_, ?_, ?_, ?_, ?_, ?_, ?_, ?_, ?_, ?_, ?_, ?_, ?_, ?_, ?_, ?_, ?_, ?_⟩ <;>
  (unfold State.setStreamState; first | (simp; done) | rfl |
    ((try dsimp only); (repeat' split) <;> first | (simp; done) | rfl | (simp_all; done)))

@[simp] theorem State.streamWork_frame (s : State) (x : StreamId) (p : Nat) (l : List (Handed Frame)) (w : Option WalkEnd) :
    (s.streamWork x p l w).pending = s.pending ∧ (s.streamWork x p l w).runState = s.runState ∧
    (s.streamWork x p l w).settings = s.settings ∧ (s.streamWork x p l w).bookCopy = s.bookCopy ∧
    (s.streamWork x p l w).book = s.book ∧
    (s.streamWork x p l w).linePin = s.linePin ∧ (s.streamWork x p l w).screens = s.screens ∧
    (s.streamWork x p l w).capLoad = s.capLoad ∧ (s.streamWork x p l w).blinkOn = s.blinkOn ∧
    (s.streamWork x p l w).blinkRunning = s.blinkRunning ∧ (s.streamWork x p l w).link = s.link ∧
    (s.streamWork x p l w).vehicle = s.vehicle ∧ (s.streamWork x p l w).monitor = s.monitor ∧
    (s.streamWork x p l w).takeover = s.takeover ∧ (s.streamWork x p l w).camera = s.camera ∧
    (s.streamWork x p l w).guide = s.guide ∧ (s.streamWork x p l w).chime = s.chime ∧
    (s.streamWork x p l w).status = s.status ∧ (s.streamWork x p l w).regs.run = s.regs.run ∧
    (s.streamWork x p l w).regs.standby = s.regs.standby ∧ (s.streamWork x p l w).regs.freeze = s.regs.freeze := by
  refine ⟨?_, ?_, ?_, ?_, ?_, ?_, ?_, ?_, ?_, ?_, ?_, ?_, ?_, ?_, ?_, ?_, ?_, ?_, ?_, ?_, ?_⟩ <;>
  (unfold State.streamWork; first | (simp; done) | rfl |
    ((try dsimp only); (repeat' split) <;> first | (simp; done) | rfl | (simp_all; done)))

@[simp] theorem State.filmSerial_frame (s : State) (x : StreamId) (e : LinkErrs) :
    ((s.filmSerial x e).2).pending = s.pending ∧ ((s.filmSerial x e).2).runState = s.runState ∧
    ((s.filmSerial x e).2).settings = s.settings ∧ ((s.filmSerial x e).2).bookCopy = s.bookCopy ∧
    ((s.filmSerial x e).2).book = s.book ∧
    ((s.filmSerial x e).2).linePin = s.linePin ∧ ((s.filmSerial x e).2).screens = s.screens ∧
    ((s.filmSerial x e).2).capLoad = s.capLoad ∧ ((s.filmSerial x e).2).blinkOn = s.blinkOn ∧
    ((s.filmSerial x e).2).blinkRunning = s.blinkRunning ∧ ((s.filmSerial x e).2).link = s.link ∧
    ((s.filmSerial x e).2).vehicle = s.vehicle ∧ ((s.filmSerial x e).2).monitor = s.monitor ∧
    ((s.filmSerial x e).2).takeover = s.takeover ∧ ((s.filmSerial x e).2).camera = s.camera ∧
    ((s.filmSerial x e).2).guide = s.guide ∧ ((s.filmSerial x e).2).chime = s.chime ∧
    ((s.filmSerial x e).2).status = s.status ∧ ((s.filmSerial x e).2).regs.run = s.regs.run ∧
    ((s.filmSerial x e).2).regs.standby = s.regs.standby ∧ ((s.filmSerial x e).2).regs.freeze = s.regs.freeze := by
  refine ⟨?_, ?_, ?_, ?_, ?_, ?_, ?_, ?_, ?_, ?_, ?_, ?_, ?_, ?_, ?_, ?_, ?_, ?_, ?_, ?_, ?_⟩ <;>
  (unfold State.filmSerial; first | (simp; done) | rfl |
    ((try dsimp only); (repeat' split) <;> first | (simp; done) | rfl | (simp_all; done)))

@[simp] theorem State.filmPoll_frame (s : State) (x : StreamId) (k : Serial) (e : LinkErrs) :
    ((s.filmPoll x k e).2.2).pending = s.pending ∧ ((s.filmPoll x k e).2.2).runState = s.runState ∧
    ((s.filmPoll x k e).2.2).settings = s.settings ∧ ((s.filmPoll x k e).2.2).bookCopy = s.bookCopy ∧
    ((s.filmPoll x k e).2.2).book = s.book ∧
    ((s.filmPoll x k e).2.2).linePin = s.linePin ∧ ((s.filmPoll x k e).2.2).screens = s.screens ∧
    ((s.filmPoll x k e).2.2).capLoad = s.capLoad ∧ ((s.filmPoll x k e).2.2).blinkOn = s.blinkOn ∧
    ((s.filmPoll x k e).2.2).blinkRunning = s.blinkRunning ∧ ((s.filmPoll x k e).2.2).streams = s.streams ∧
    ((s.filmPoll x k e).2.2).link = s.link ∧ ((s.filmPoll x k e).2.2).vehicle = s.vehicle ∧
    ((s.filmPoll x k e).2.2).monitor = s.monitor ∧ ((s.filmPoll x k e).2.2).takeover = s.takeover ∧
    ((s.filmPoll x k e).2.2).camera = s.camera ∧ ((s.filmPoll x k e).2.2).guide = s.guide ∧
    ((s.filmPoll x k e).2.2).chime = s.chime ∧ ((s.filmPoll x k e).2.2).status = s.status ∧
    ((s.filmPoll x k e).2.2).regs.run = s.regs.run ∧ ((s.filmPoll x k e).2.2).regs.standby = s.regs.standby ∧
    ((s.filmPoll x k e).2.2).regs.freeze = s.regs.freeze := by
  refine ⟨?_, ?_, ?_, ?_, ?_, ?_, ?_, ?_, ?_, ?_, ?_, ?_, ?_, ?_, ?_, ?_, ?_, ?_, ?_, ?_, ?_, ?_⟩ <;>
  (unfold State.filmPoll; first | (simp; done) | rfl |
    ((try dsimp only); (repeat' split) <;> first | (simp; done) | rfl | (simp_all; done)))

@[simp] theorem State.faultStream_frame (s : State) (x : StreamId) :
    (s.faultStream x).pending = s.pending ∧ (s.faultStream x).runState = s.runState ∧
    (s.faultStream x).settings = s.settings ∧ (s.faultStream x).bookCopy = s.bookCopy ∧
    (s.faultStream x).book = s.book ∧
    (s.faultStream x).linePin = s.linePin ∧ (s.faultStream x).mem = s.mem ∧ (s.faultStream x).chains = s.chains ∧
    (s.faultStream x).holds = s.holds ∧ (s.faultStream x).screens = s.screens ∧
    (s.faultStream x).capLoad = s.capLoad ∧ (s.faultStream x).blinkOn = s.blinkOn ∧
    (s.faultStream x).blinkRunning = s.blinkRunning ∧ (s.faultStream x).link = s.link ∧
    (s.faultStream x).vehicle = s.vehicle ∧ (s.faultStream x).monitor = s.monitor ∧
    (s.faultStream x).takeover = s.takeover ∧ (s.faultStream x).camera = s.camera ∧
    (s.faultStream x).guide = s.guide ∧ (s.faultStream x).chime = s.chime ∧ (s.faultStream x).status = s.status ∧
    (s.faultStream x).freeIx = s.freeIx ∧ (s.faultStream x).regs.run = s.regs.run ∧
    (s.faultStream x).regs.standby = s.regs.standby ∧ (s.faultStream x).regs.freeze = s.regs.freeze := by
  refine ⟨?_, ?_, ?_, ?_, ?_, ?_, ?_, ?_, ?_, ?_, ?_, ?_, ?_, ?_, ?_, ?_, ?_, ?_, ?_, ?_, ?_, ?_, ?_, ?_, ?_⟩ <;>
  (unfold State.faultStream; first | (simp; done) | rfl |
    ((try dsimp only); (repeat' split) <;> first | (simp; done) | rfl | (simp_all; done)))

@[simp] theorem State.raiseStream_frame (s : State) (x : StreamId) (t : StreamState) :
    (s.raiseStream x t).pending = s.pending ∧ (s.raiseStream x t).runState = s.runState ∧
    (s.raiseStream x t).settings = s.settings ∧ (s.raiseStream x t).bookCopy = s.bookCopy ∧
    (s.raiseStream x t).book = s.book ∧
    (s.raiseStream x t).linePin = s.linePin ∧ (s.raiseStream x t).mem = s.mem ∧
    (s.raiseStream x t).chains = s.chains ∧ (s.raiseStream x t).holds = s.holds ∧
    (s.raiseStream x t).screens = s.screens ∧ (s.raiseStream x t).capLoad = s.capLoad ∧
    (s.raiseStream x t).blinkOn = s.blinkOn ∧ (s.raiseStream x t).blinkRunning = s.blinkRunning ∧
    (s.raiseStream x t).streams = s.streams ∧ (s.raiseStream x t).link = s.link ∧
    (s.raiseStream x t).vehicle = s.vehicle ∧ (s.raiseStream x t).monitor = s.monitor ∧
    (s.raiseStream x t).takeover = s.takeover ∧ (s.raiseStream x t).camera = s.camera ∧
    (s.raiseStream x t).guide = s.guide ∧ (s.raiseStream x t).chime = s.chime ∧
    (s.raiseStream x t).status = s.status ∧ (s.raiseStream x t).freeIx = s.freeIx ∧
    (s.raiseStream x t).regs.run = s.regs.run ∧ (s.raiseStream x t).regs.standby = s.regs.standby ∧
    (s.raiseStream x t).regs.freeze = s.regs.freeze := by
  refine ⟨?_, ?_, ?_, ?_, ?_, ?_, ?_, ?_, ?_, ?_, ?_, ?_, ?_, ?_, ?_, ?_, ?_, ?_, ?_, ?_, ?_, ?_, ?_, ?_, ?_, ?_⟩ <;>
  (unfold State.raiseStream; first | (simp; done) | rfl |
    ((try dsimp only); (repeat' split) <;> first | (simp; done) | rfl | (simp_all; done)))

@[simp] theorem State.paceActive_frame (s : State) (x : StreamId) (p : Nat) (c : Controls) (e : LinkErrs) :
    (s.paceActive x p c e).pending = s.pending ∧ (s.paceActive x p c e).runState = s.runState ∧
    (s.paceActive x p c e).settings = s.settings ∧ (s.paceActive x p c e).bookCopy = s.bookCopy ∧
    (s.paceActive x p c e).book = s.book ∧
    (s.paceActive x p c e).linePin = s.linePin ∧ (s.paceActive x p c e).screens = s.screens ∧
    (s.paceActive x p c e).capLoad = s.capLoad ∧ (s.paceActive x p c e).blinkOn = s.blinkOn ∧
    (s.paceActive x p c e).blinkRunning = s.blinkRunning ∧ (s.paceActive x p c e).link = s.link ∧
    (s.paceActive x p c e).vehicle = s.vehicle ∧ (s.paceActive x p c e).monitor = s.monitor ∧
    (s.paceActive x p c e).takeover = s.takeover ∧ (s.paceActive x p c e).camera = s.camera ∧
    (s.paceActive x p c e).guide = s.guide ∧ (s.paceActive x p c e).chime = s.chime ∧
    (s.paceActive x p c e).status = s.status ∧ (s.paceActive x p c e).regs.run = s.regs.run ∧
    (s.paceActive x p c e).regs.standby = s.regs.standby ∧ (s.paceActive x p c e).regs.freeze = s.regs.freeze := by
  refine ⟨?_, ?_, ?_, ?_, ?_, ?_, ?_, ?_, ?_, ?_, ?_, ?_, ?_, ?_, ?_, ?_, ?_, ?_, ?_, ?_, ?_⟩ <;>
  (unfold State.paceActive; first | (simp; done) | rfl |
    ((try dsimp only); (repeat' split) <;> first | (simp; done) | rfl | (simp_all; done)))

@[simp] theorem State.paceWith_frame (s : State) (x : StreamId) (p : Nat) (c : Controls) (e : LinkErrs) :
    (s.paceWith x p c e).pending = s.pending ∧ (s.paceWith x p c e).runState = s.runState ∧
    (s.paceWith x p c e).settings = s.settings ∧ (s.paceWith x p c e).bookCopy = s.bookCopy ∧
    (s.paceWith x p c e).book = s.book ∧
    (s.paceWith x p c e).linePin = s.linePin ∧ (s.paceWith x p c e).screens = s.screens ∧
    (s.paceWith x p c e).capLoad = s.capLoad ∧ (s.paceWith x p c e).blinkOn = s.blinkOn ∧
    (s.paceWith x p c e).blinkRunning = s.blinkRunning ∧ (s.paceWith x p c e).link = s.link ∧
    (s.paceWith x p c e).vehicle = s.vehicle ∧ (s.paceWith x p c e).monitor = s.monitor ∧
    (s.paceWith x p c e).takeover = s.takeover ∧ (s.paceWith x p c e).camera = s.camera ∧
    (s.paceWith x p c e).guide = s.guide ∧ (s.paceWith x p c e).chime = s.chime ∧
    (s.paceWith x p c e).status = s.status ∧ (s.paceWith x p c e).regs.run = s.regs.run ∧
    (s.paceWith x p c e).regs.standby = s.regs.standby ∧ (s.paceWith x p c e).regs.freeze = s.regs.freeze := by
  refine ⟨?_, ?_, ?_, ?_, ?_, ?_, ?_, ?_, ?_, ?_, ?_, ?_, ?_, ?_, ?_, ?_, ?_, ?_, ?_, ?_, ?_⟩ <;>
  (unfold State.paceWith; first | (simp; done) | rfl |
    ((try dsimp only); (repeat' split) <;> first | (simp; done) | rfl | (simp_all; done)))

@[simp] theorem State.pace_frame (s : State) (x : StreamId) (t p : Nat) (e : LinkErrs) :
    (s.pace x t p e).pending = s.pending ∧ (s.pace x t p e).runState = s.runState ∧
    (s.pace x t p e).settings = s.settings ∧ (s.pace x t p e).bookCopy = s.bookCopy ∧ (s.pace x t p e).book = s.book ∧
    (s.pace x t p e).linePin = s.linePin ∧
    (s.pace x t p e).screens = s.screens ∧ (s.pace x t p e).capLoad = s.capLoad ∧
    (s.pace x t p e).blinkOn = s.blinkOn ∧ (s.pace x t p e).blinkRunning = s.blinkRunning ∧
    (s.pace x t p e).link = s.link ∧ (s.pace x t p e).vehicle = s.vehicle ∧ (s.pace x t p e).monitor = s.monitor ∧
    (s.pace x t p e).takeover = s.takeover ∧ (s.pace x t p e).camera = s.camera ∧ (s.pace x t p e).guide = s.guide ∧
    (s.pace x t p e).chime = s.chime ∧ (s.pace x t p e).status = s.status ∧ (s.pace x t p e).regs.run = s.regs.run ∧
    (s.pace x t p e).regs.standby = s.regs.standby ∧ (s.pace x t p e).regs.freeze = s.regs.freeze := by
  refine ⟨?_, ?_, ?_, ?_, ?_, ?_, ?_, ?_, ?_, ?_, ?_, ?_, ?_, ?_, ?_, ?_, ?_, ?_, ?_, ?_, ?_⟩ <;>
  (unfold State.pace; first | (simp; done) | rfl |
    ((try dsimp only); (repeat' split) <;> first | (simp; done) | rfl | (simp_all; done)))

@[simp] theorem State.paceStreams_frame (s : State) (i : ScreenId) (t : Nat) (e : LinkErrs) :
    (s.paceStreams i t e).pending = s.pending ∧ (s.paceStreams i t e).runState = s.runState ∧
    (s.paceStreams i t e).settings = s.settings ∧ (s.paceStreams i t e).bookCopy = s.bookCopy ∧
    (s.paceStreams i t e).book = s.book ∧
    (s.paceStreams i t e).linePin = s.linePin ∧ (s.paceStreams i t e).screens = s.screens ∧
    (s.paceStreams i t e).capLoad = s.capLoad ∧ (s.paceStreams i t e).blinkOn = s.blinkOn ∧
    (s.paceStreams i t e).blinkRunning = s.blinkRunning ∧ (s.paceStreams i t e).link = s.link ∧
    (s.paceStreams i t e).vehicle = s.vehicle ∧ (s.paceStreams i t e).monitor = s.monitor ∧
    (s.paceStreams i t e).takeover = s.takeover ∧ (s.paceStreams i t e).camera = s.camera ∧
    (s.paceStreams i t e).guide = s.guide ∧ (s.paceStreams i t e).chime = s.chime ∧
    (s.paceStreams i t e).status = s.status ∧ (s.paceStreams i t e).regs.run = s.regs.run ∧
    (s.paceStreams i t e).regs.standby = s.regs.standby ∧ (s.paceStreams i t e).regs.freeze = s.regs.freeze := by
  refine ⟨?_, ?_, ?_, ?_, ?_, ?_, ?_, ?_, ?_, ?_, ?_, ?_, ?_, ?_, ?_, ?_, ?_, ?_, ?_, ?_, ?_⟩ <;>
  (unfold State.paceStreams; first | (simp; done) | rfl |
    ((try dsimp only); (repeat' split) <;> first | (simp; done) | rfl | (simp_all; done)))

@[simp] theorem State.beginRefresh_frame (s : State) (i : ScreenId) :
    (s.beginRefresh i).pending = s.pending ∧ (s.beginRefresh i).runState = s.runState ∧
    (s.beginRefresh i).settings = s.settings ∧ (s.beginRefresh i).bookCopy = s.bookCopy ∧
    (s.beginRefresh i).book = s.book ∧
    (s.beginRefresh i).linePin = s.linePin ∧ (s.beginRefresh i).chains = s.chains ∧
    (s.beginRefresh i).capLoad = s.capLoad ∧ (s.beginRefresh i).blinkOn = s.blinkOn ∧
    (s.beginRefresh i).blinkRunning = s.blinkRunning ∧ (s.beginRefresh i).streams = s.streams ∧
    (s.beginRefresh i).link = s.link ∧ (s.beginRefresh i).vehicle = s.vehicle ∧
    (s.beginRefresh i).monitor = s.monitor ∧ (s.beginRefresh i).takeover = s.takeover ∧
    (s.beginRefresh i).camera = s.camera ∧ (s.beginRefresh i).guide = s.guide ∧ (s.beginRefresh i).chime = s.chime ∧
    (s.beginRefresh i).status = s.status ∧ (s.beginRefresh i).freeIx = s.freeIx ∧
    (s.beginRefresh i).regs.run = s.regs.run ∧ (s.beginRefresh i).regs.standby = s.regs.standby ∧
    (s.beginRefresh i).regs.freeze = s.regs.freeze := by
  refine ⟨?_, ?_, ?_, ?_, ?_, ?_, ?_, ?_, ?_, ?_, ?_, ?_, ?_, ?_, ?_, ?_, ?_, ?_, ?_, ?_, ?_, ?_, ?_⟩ <;>
  (unfold State.beginRefresh; first | (simp; done) | rfl |
    ((try dsimp only); (repeat' split) <;> first | (simp; done) | rfl | (simp_all; done)))

@[simp] theorem State.frameStart_frame (s : State) (i : ScreenId) (e : LinkErrs) :
    (s.frameStart i e).pending = s.pending ∧ (s.frameStart i e).runState = s.runState ∧
    (s.frameStart i e).settings = s.settings ∧ (s.frameStart i e).bookCopy = s.bookCopy ∧
    (s.frameStart i e).book = s.book ∧
    (s.frameStart i e).linePin = s.linePin ∧ (s.frameStart i e).blinkOn = s.blinkOn ∧
    (s.frameStart i e).blinkRunning = s.blinkRunning ∧ (s.frameStart i e).link = s.link ∧
    (s.frameStart i e).vehicle = s.vehicle ∧ (s.frameStart i e).monitor = s.monitor ∧
    (s.frameStart i e).chime = s.chime ∧ (s.frameStart i e).status = s.status ∧
    (s.frameStart i e).regs.run = s.regs.run ∧ (s.frameStart i e).regs.standby = s.regs.standby ∧
    (s.frameStart i e).regs.freeze = s.regs.freeze := by
  cases i <;> simp [State.frameStart, State.atCentre]

@[simp] theorem State.endRefresh_frame (s : State) (i : ScreenId) :
    (s.endRefresh i).pending = s.pending ∧ (s.endRefresh i).runState = s.runState ∧
    (s.endRefresh i).settings = s.settings ∧ (s.endRefresh i).bookCopy = s.bookCopy ∧ (s.endRefresh i).book = s.book ∧
    (s.endRefresh i).linePin = s.linePin ∧
    (s.endRefresh i).mem = s.mem ∧ (s.endRefresh i).chains = s.chains ∧ (s.endRefresh i).holds = s.holds ∧
    (s.endRefresh i).capLoad = s.capLoad ∧ (s.endRefresh i).blinkOn = s.blinkOn ∧
    (s.endRefresh i).blinkRunning = s.blinkRunning ∧ (s.endRefresh i).streams = s.streams ∧
    (s.endRefresh i).link = s.link ∧ (s.endRefresh i).vehicle = s.vehicle ∧ (s.endRefresh i).monitor = s.monitor ∧
    (s.endRefresh i).takeover = s.takeover ∧ (s.endRefresh i).guide = s.guide ∧ (s.endRefresh i).chime = s.chime ∧
    (s.endRefresh i).status = s.status ∧ (s.endRefresh i).freeIx = s.freeIx ∧
    (s.endRefresh i).regs.run = s.regs.run ∧ (s.endRefresh i).regs.standby = s.regs.standby ∧
    (s.endRefresh i).regs.freeze = s.regs.freeze := by
  cases i <;> simp [State.endRefresh, State.atCentre]

@[simp] theorem State.startGens_frame (s : State) :
    s.startGens.pending = s.pending ∧ s.startGens.runState = s.runState ∧ s.startGens.settings = s.settings ∧
    s.startGens.bookCopy = s.bookCopy ∧
    s.startGens.book = s.book ∧ s.startGens.linePin = s.linePin ∧ s.startGens.mem = s.mem ∧
    s.startGens.chains = s.chains ∧ s.startGens.holds = s.holds ∧ s.startGens.capLoad = s.capLoad ∧
    s.startGens.blinkOn = s.blinkOn ∧ s.startGens.blinkRunning = s.blinkRunning ∧ s.startGens.streams = s.streams ∧
    s.startGens.link = s.link ∧ s.startGens.vehicle = s.vehicle ∧ s.startGens.monitor = s.monitor ∧
    s.startGens.takeover = s.takeover ∧ s.startGens.camera = s.camera ∧ s.startGens.guide = s.guide ∧
    s.startGens.chime = s.chime ∧ s.startGens.status = s.status ∧ s.startGens.freeIx = s.freeIx ∧
    s.startGens.regs.run = s.regs.run ∧ s.startGens.regs.standby = s.regs.standby ∧
    s.startGens.regs.freeze = s.regs.freeze := by
  refine ⟨?_, ?_, ?_, ?_, ?_, ?_, ?_, ?_, ?_, ?_, ?_, ?_, ?_, ?_, ?_, ?_, ?_, ?_, ?_, ?_, ?_, ?_, ?_, ?_, ?_⟩ <;>
  (unfold State.startGens; first | (simp; done) | rfl |
    ((try dsimp only); (repeat' split) <;> first | (simp; done) | rfl | (simp_all; done)))

@[simp] theorem State.clearAdmissions_frame (s : State) :
    s.clearAdmissions.pending = s.pending ∧ s.clearAdmissions.runState = s.runState ∧
    s.clearAdmissions.settings = s.settings ∧ s.clearAdmissions.bookCopy = s.bookCopy ∧
    s.clearAdmissions.book = s.book ∧
    s.clearAdmissions.linePin = s.linePin ∧ s.clearAdmissions.mem = s.mem ∧ s.clearAdmissions.chains = s.chains ∧
    s.clearAdmissions.holds = s.holds ∧ s.clearAdmissions.capLoad = s.capLoad ∧
    s.clearAdmissions.blinkOn = s.blinkOn ∧ s.clearAdmissions.blinkRunning = s.blinkRunning ∧
    s.clearAdmissions.streams = s.streams ∧ s.clearAdmissions.link = s.link ∧ s.clearAdmissions.vehicle = s.vehicle ∧
    s.clearAdmissions.monitor = s.monitor ∧ s.clearAdmissions.takeover = s.takeover ∧
    s.clearAdmissions.camera = s.camera ∧ s.clearAdmissions.guide = s.guide ∧ s.clearAdmissions.chime = s.chime ∧
    s.clearAdmissions.status = s.status ∧ s.clearAdmissions.freeIx = s.freeIx ∧
    s.clearAdmissions.regs.run = s.regs.run ∧ s.clearAdmissions.regs.standby = s.regs.standby ∧
    s.clearAdmissions.regs.freeze = s.regs.freeze := by
  refine ⟨?_, ?_, ?_, ?_, ?_, ?_, ?_, ?_, ?_, ?_, ?_, ?_, ?_, ?_, ?_, ?_, ?_, ?_, ?_, ?_, ?_, ?_, ?_, ?_, ?_⟩ <;>
  (unfold State.clearAdmissions; first | (simp; done) | rfl |
    ((try dsimp only); (repeat' split) <;> first | (simp; done) | rfl | (simp_all; done)))

@[simp] theorem State.recomputeDuties_frame (s : State) :
    s.recomputeDuties.pending = s.pending ∧ s.recomputeDuties.runState = s.runState ∧
    s.recomputeDuties.settings = s.settings ∧ s.recomputeDuties.bookCopy = s.bookCopy ∧
    s.recomputeDuties.book = s.book ∧
    s.recomputeDuties.linePin = s.linePin ∧ s.recomputeDuties.mem = s.mem ∧ s.recomputeDuties.chains = s.chains ∧
    s.recomputeDuties.holds = s.holds ∧ s.recomputeDuties.capLoad = s.capLoad ∧
    s.recomputeDuties.blinkOn = s.blinkOn ∧ s.recomputeDuties.blinkRunning = s.blinkRunning ∧
    s.recomputeDuties.streams = s.streams ∧ s.recomputeDuties.link = s.link ∧ s.recomputeDuties.vehicle = s.vehicle ∧
    s.recomputeDuties.monitor = s.monitor ∧ s.recomputeDuties.takeover = s.takeover ∧
    s.recomputeDuties.camera = s.camera ∧ s.recomputeDuties.guide = s.guide ∧ s.recomputeDuties.chime = s.chime ∧
    s.recomputeDuties.status = s.status ∧ s.recomputeDuties.freeIx = s.freeIx ∧
    s.recomputeDuties.regs.run = s.regs.run ∧ s.recomputeDuties.regs.standby = s.regs.standby ∧
    s.recomputeDuties.regs.freeze = s.regs.freeze := by
  refine ⟨?_, ?_, ?_, ?_, ?_, ?_, ?_, ?_, ?_, ?_, ?_, ?_, ?_, ?_, ?_, ?_, ?_, ?_, ?_, ?_, ?_, ?_, ?_, ?_, ?_⟩ <;>
  (unfold State.recomputeDuties; first | (simp; done) | rfl |
    ((try dsimp only); (repeat' split) <;> first | (simp; done) | rfl | (simp_all; done)))

@[simp] theorem State.followDuck_frame (s : State) :
    s.followDuck.pending = s.pending ∧ s.followDuck.runState = s.runState ∧ s.followDuck.settings = s.settings ∧
    s.followDuck.bookCopy = s.bookCopy ∧
    s.followDuck.book = s.book ∧ s.followDuck.linePin = s.linePin ∧ s.followDuck.mem = s.mem ∧
    s.followDuck.chains = s.chains ∧ s.followDuck.holds = s.holds ∧ s.followDuck.screens = s.screens ∧
    s.followDuck.capLoad = s.capLoad ∧ s.followDuck.blinkOn = s.blinkOn ∧
    s.followDuck.blinkRunning = s.blinkRunning ∧ s.followDuck.streams = s.streams ∧ s.followDuck.link = s.link ∧
    s.followDuck.vehicle = s.vehicle ∧ s.followDuck.monitor = s.monitor ∧ s.followDuck.takeover = s.takeover ∧
    s.followDuck.camera = s.camera ∧ s.followDuck.guide = s.guide ∧ s.followDuck.status = s.status ∧
    s.followDuck.freeIx = s.freeIx ∧ s.followDuck.regs.run = s.regs.run ∧
    s.followDuck.regs.standby = s.regs.standby ∧ s.followDuck.regs.freeze = s.regs.freeze := by
  refine ⟨?_, ?_, ?_, ?_, ?_, ?_, ?_, ?_, ?_, ?_, ?_, ?_, ?_, ?_, ?_, ?_, ?_, ?_, ?_, ?_, ?_, ?_, ?_, ?_, ?_⟩ <;>
  (unfold State.followDuck; first | (simp; done) | rfl |
    ((try dsimp only); (repeat' split) <;> first | (simp; done) | rfl | (simp_all; done)))

@[simp] theorem State.handZone_frame (s : State) (z : Zone) (d : Option Nat) :
    (s.handZone z d).pending = s.pending ∧ (s.handZone z d).runState = s.runState ∧
    (s.handZone z d).settings = s.settings ∧ (s.handZone z d).bookCopy = s.bookCopy ∧ (s.handZone z d).book = s.book ∧
    (s.handZone z d).linePin = s.linePin ∧
    (s.handZone z d).mem = s.mem ∧ (s.handZone z d).chains = s.chains ∧ (s.handZone z d).holds = s.holds ∧
    (s.handZone z d).screens = s.screens ∧ (s.handZone z d).capLoad = s.capLoad ∧
    (s.handZone z d).blinkOn = s.blinkOn ∧ (s.handZone z d).blinkRunning = s.blinkRunning ∧
    (s.handZone z d).streams = s.streams ∧ (s.handZone z d).link = s.link ∧ (s.handZone z d).vehicle = s.vehicle ∧
    (s.handZone z d).monitor = s.monitor ∧ (s.handZone z d).takeover = s.takeover ∧
    (s.handZone z d).camera = s.camera ∧ (s.handZone z d).guide = s.guide ∧ (s.handZone z d).status = s.status ∧
    (s.handZone z d).freeIx = s.freeIx ∧ (s.handZone z d).regs.run = s.regs.run ∧
    (s.handZone z d).regs.standby = s.regs.standby ∧ (s.handZone z d).regs.freeze = s.regs.freeze := by
  refine ⟨?_, ?_, ?_, ?_, ?_, ?_, ?_, ?_, ?_, ?_, ?_, ?_, ?_, ?_, ?_, ?_, ?_, ?_, ?_, ?_, ?_, ?_, ?_, ?_, ?_⟩ <;>
  (unfold State.handZone; first | (simp; done) | rfl |
    ((try dsimp only); (repeat' split) <;> first | (simp; done) | rfl | (simp_all; done)))

@[simp] theorem State.handTakeover_frame (s : State) (t : TakeoverState) :
    (s.handTakeover t).pending = s.pending ∧ (s.handTakeover t).runState = s.runState ∧
    (s.handTakeover t).settings = s.settings ∧ (s.handTakeover t).bookCopy = s.bookCopy ∧
    (s.handTakeover t).book = s.book ∧
    (s.handTakeover t).linePin = s.linePin ∧ (s.handTakeover t).mem = s.mem ∧ (s.handTakeover t).chains = s.chains ∧
    (s.handTakeover t).holds = s.holds ∧ (s.handTakeover t).screens = s.screens ∧
    (s.handTakeover t).capLoad = s.capLoad ∧ (s.handTakeover t).blinkOn = s.blinkOn ∧
    (s.handTakeover t).blinkRunning = s.blinkRunning ∧ (s.handTakeover t).streams = s.streams ∧
    (s.handTakeover t).link = s.link ∧ (s.handTakeover t).vehicle = s.vehicle ∧
    (s.handTakeover t).monitor = s.monitor ∧ (s.handTakeover t).takeover = s.takeover ∧
    (s.handTakeover t).camera = s.camera ∧ (s.handTakeover t).guide = s.guide ∧
    (s.handTakeover t).status = s.status ∧ (s.handTakeover t).freeIx = s.freeIx ∧
    (s.handTakeover t).regs.run = s.regs.run ∧ (s.handTakeover t).regs.standby = s.regs.standby ∧
    (s.handTakeover t).regs.freeze = s.regs.freeze := by
  refine ⟨?_, ?_, ?_, ?_, ?_, ?_, ?_, ?_, ?_, ?_, ?_, ?_, ?_, ?_, ?_, ?_, ?_, ?_, ?_, ?_, ?_, ?_, ?_, ?_, ?_⟩ <;>
  (unfold State.handTakeover; first | (simp; done) | rfl |
    ((try dsimp only); (repeat' split) <;> first | (simp; done) | rfl | (simp_all; done)))

@[simp] theorem State.dropChime_frame (s : State) (q : QEntry) :
    (s.dropChime q).pending = s.pending ∧ (s.dropChime q).runState = s.runState ∧
    (s.dropChime q).settings = s.settings ∧ (s.dropChime q).bookCopy = s.bookCopy ∧ (s.dropChime q).book = s.book ∧
    (s.dropChime q).linePin = s.linePin ∧
    (s.dropChime q).chains = s.chains ∧ (s.dropChime q).screens = s.screens ∧ (s.dropChime q).capLoad = s.capLoad ∧
    (s.dropChime q).blinkOn = s.blinkOn ∧ (s.dropChime q).blinkRunning = s.blinkRunning ∧
    (s.dropChime q).streams = s.streams ∧ (s.dropChime q).link = s.link ∧ (s.dropChime q).vehicle = s.vehicle ∧
    (s.dropChime q).monitor = s.monitor ∧ (s.dropChime q).takeover = s.takeover ∧ (s.dropChime q).camera = s.camera ∧
    (s.dropChime q).guide = s.guide ∧ (s.dropChime q).status = s.status ∧ (s.dropChime q).freeIx = s.freeIx ∧
    (s.dropChime q).regs.run = s.regs.run ∧ (s.dropChime q).regs.standby = s.regs.standby ∧
    (s.dropChime q).regs.freeze = s.regs.freeze := by
  refine ⟨?_, ?_, ?_, ?_, ?_, ?_, ?_, ?_, ?_, ?_, ?_, ?_, ?_, ?_, ?_, ?_, ?_, ?_, ?_, ?_, ?_, ?_, ?_⟩ <;>
  (unfold State.dropChime; first | (simp; done) | rfl |
    ((try dsimp only); (repeat' split) <;> first | (simp; done) | rfl | (simp_all; done)))

@[simp] theorem State.placeAlert_frame (s : State) (q : QEntry) :
    (s.placeAlert q).pending = s.pending ∧ (s.placeAlert q).runState = s.runState ∧
    (s.placeAlert q).settings = s.settings ∧ (s.placeAlert q).bookCopy = s.bookCopy ∧ (s.placeAlert q).book = s.book ∧
    (s.placeAlert q).linePin = s.linePin ∧
    (s.placeAlert q).chains = s.chains ∧ (s.placeAlert q).screens = s.screens ∧
    (s.placeAlert q).capLoad = s.capLoad ∧ (s.placeAlert q).blinkOn = s.blinkOn ∧
    (s.placeAlert q).blinkRunning = s.blinkRunning ∧ (s.placeAlert q).streams = s.streams ∧
    (s.placeAlert q).link = s.link ∧ (s.placeAlert q).vehicle = s.vehicle ∧ (s.placeAlert q).monitor = s.monitor ∧
    (s.placeAlert q).takeover = s.takeover ∧ (s.placeAlert q).camera = s.camera ∧ (s.placeAlert q).guide = s.guide ∧
    (s.placeAlert q).status = s.status ∧ (s.placeAlert q).freeIx = s.freeIx ∧
    (s.placeAlert q).regs.run = s.regs.run ∧ (s.placeAlert q).regs.standby = s.regs.standby ∧
    (s.placeAlert q).regs.freeze = s.regs.freeze := by
  refine ⟨?_, ?_, ?_, ?_, ?_, ?_, ?_, ?_, ?_, ?_, ?_, ?_, ?_, ?_, ?_, ?_, ?_, ?_, ?_, ?_, ?_, ?_, ?_⟩ <;>
  (unfold State.placeAlert; first | (simp; done) | rfl |
    ((try dsimp only); (repeat' split) <;> first | (simp; done) | rfl | (simp_all; done)))

@[simp] theorem State.replaceClick_frame (s : State) (q : QEntry) :
    (s.replaceClick q).pending = s.pending ∧ (s.replaceClick q).runState = s.runState ∧
    (s.replaceClick q).settings = s.settings ∧ (s.replaceClick q).bookCopy = s.bookCopy ∧
    (s.replaceClick q).book = s.book ∧
    (s.replaceClick q).linePin = s.linePin ∧ (s.replaceClick q).chains = s.chains ∧
    (s.replaceClick q).screens = s.screens ∧ (s.replaceClick q).capLoad = s.capLoad ∧
    (s.replaceClick q).blinkOn = s.blinkOn ∧ (s.replaceClick q).blinkRunning = s.blinkRunning ∧
    (s.replaceClick q).streams = s.streams ∧ (s.replaceClick q).link = s.link ∧
    (s.replaceClick q).vehicle = s.vehicle ∧ (s.replaceClick q).monitor = s.monitor ∧
    (s.replaceClick q).takeover = s.takeover ∧ (s.replaceClick q).camera = s.camera ∧
    (s.replaceClick q).guide = s.guide ∧ (s.replaceClick q).status = s.status ∧
    (s.replaceClick q).freeIx = s.freeIx ∧ (s.replaceClick q).regs.run = s.regs.run ∧
    (s.replaceClick q).regs.standby = s.regs.standby ∧ (s.replaceClick q).regs.freeze = s.regs.freeze := by
  refine ⟨?_, ?_, ?_, ?_, ?_, ?_, ?_, ?_, ?_, ?_, ?_, ?_, ?_, ?_, ?_, ?_, ?_, ?_, ?_, ?_, ?_, ?_, ?_⟩ <;>
  (unfold State.replaceClick; first | (simp; done) | rfl |
    ((try dsimp only); (repeat' split) <;> first | (simp; done) | rfl | (simp_all; done)))

@[simp] theorem State.insertUi_frame (s : State) (q : QEntry) :
    (s.insertUi q).pending = s.pending ∧ (s.insertUi q).runState = s.runState ∧
    (s.insertUi q).settings = s.settings ∧ (s.insertUi q).bookCopy = s.bookCopy ∧ (s.insertUi q).book = s.book ∧
    (s.insertUi q).linePin = s.linePin ∧
    (s.insertUi q).chains = s.chains ∧ (s.insertUi q).screens = s.screens ∧ (s.insertUi q).capLoad = s.capLoad ∧
    (s.insertUi q).blinkOn = s.blinkOn ∧ (s.insertUi q).blinkRunning = s.blinkRunning ∧
    (s.insertUi q).streams = s.streams ∧ (s.insertUi q).link = s.link ∧ (s.insertUi q).vehicle = s.vehicle ∧
    (s.insertUi q).monitor = s.monitor ∧ (s.insertUi q).takeover = s.takeover ∧ (s.insertUi q).camera = s.camera ∧
    (s.insertUi q).guide = s.guide ∧ (s.insertUi q).status = s.status ∧ (s.insertUi q).freeIx = s.freeIx ∧
    (s.insertUi q).regs.run = s.regs.run ∧ (s.insertUi q).regs.standby = s.regs.standby ∧
    (s.insertUi q).regs.freeze = s.regs.freeze := by
  refine ⟨?_, ?_, ?_, ?_, ?_, ?_, ?_, ?_, ?_, ?_, ?_, ?_, ?_, ?_, ?_, ?_, ?_, ?_, ?_, ?_, ?_, ?_, ?_⟩ <;>
  (unfold State.insertUi; first | (simp; done) | rfl |
    ((try dsimp only); (repeat' split) <;> first | (simp; done) | rfl | (simp_all; done)))

@[simp] theorem State.placeUi_frame (s : State) (q : QEntry) :
    (s.placeUi q).pending = s.pending ∧ (s.placeUi q).runState = s.runState ∧ (s.placeUi q).settings = s.settings ∧
    (s.placeUi q).bookCopy = s.bookCopy ∧
    (s.placeUi q).book = s.book ∧ (s.placeUi q).linePin = s.linePin ∧ (s.placeUi q).chains = s.chains ∧
    (s.placeUi q).screens = s.screens ∧ (s.placeUi q).capLoad = s.capLoad ∧ (s.placeUi q).blinkOn = s.blinkOn ∧
    (s.placeUi q).blinkRunning = s.blinkRunning ∧ (s.placeUi q).streams = s.streams ∧ (s.placeUi q).link = s.link ∧
    (s.placeUi q).vehicle = s.vehicle ∧ (s.placeUi q).monitor = s.monitor ∧ (s.placeUi q).takeover = s.takeover ∧
    (s.placeUi q).camera = s.camera ∧ (s.placeUi q).guide = s.guide ∧ (s.placeUi q).status = s.status ∧
    (s.placeUi q).freeIx = s.freeIx ∧ (s.placeUi q).regs.run = s.regs.run ∧
    (s.placeUi q).regs.standby = s.regs.standby ∧ (s.placeUi q).regs.freeze = s.regs.freeze := by
  refine ⟨?_, ?_, ?_, ?_, ?_, ?_, ?_, ?_, ?_, ?_, ?_, ?_, ?_, ?_, ?_, ?_, ?_, ?_, ?_, ?_, ?_, ?_, ?_⟩ <;>
  (unfold State.placeUi; first | (simp; done) | rfl |
    ((try dsimp only); (repeat' split) <;> first | (simp; done) | rfl | (simp_all; done)))

@[simp] theorem State.cancelOne_frame (s : State) (q : QEntry) :
    (s.cancelOne q).pending = s.pending ∧ (s.cancelOne q).runState = s.runState ∧
    (s.cancelOne q).settings = s.settings ∧ (s.cancelOne q).bookCopy = s.bookCopy ∧ (s.cancelOne q).book = s.book ∧
    (s.cancelOne q).linePin = s.linePin ∧
    (s.cancelOne q).chains = s.chains ∧ (s.cancelOne q).screens = s.screens ∧ (s.cancelOne q).capLoad = s.capLoad ∧
    (s.cancelOne q).blinkOn = s.blinkOn ∧ (s.cancelOne q).blinkRunning = s.blinkRunning ∧
    (s.cancelOne q).streams = s.streams ∧ (s.cancelOne q).link = s.link ∧ (s.cancelOne q).vehicle = s.vehicle ∧
    (s.cancelOne q).monitor = s.monitor ∧ (s.cancelOne q).takeover = s.takeover ∧ (s.cancelOne q).camera = s.camera ∧
    (s.cancelOne q).guide = s.guide ∧ (s.cancelOne q).status = s.status ∧ (s.cancelOne q).freeIx = s.freeIx ∧
    (s.cancelOne q).regs.run = s.regs.run ∧ (s.cancelOne q).regs.standby = s.regs.standby ∧
    (s.cancelOne q).regs.freeze = s.regs.freeze := by
  refine ⟨?_, ?_, ?_, ?_, ?_, ?_, ?_, ?_, ?_, ?_, ?_, ?_, ?_, ?_, ?_, ?_, ?_, ?_, ?_, ?_, ?_, ?_, ?_⟩ <;>
  (unfold State.cancelOne; first | (simp; done) | rfl |
    ((try dsimp only); (repeat' split) <;> first | (simp; done) | rfl | (simp_all; done)))

@[simp] theorem State.cancelAll_frame (s : State) (l : List QEntry) :
    (l.foldl (fun s q => s.cancelOne q) s).pending = s.pending ∧
    (l.foldl (fun s q => s.cancelOne q) s).runState = s.runState ∧
    (l.foldl (fun s q => s.cancelOne q) s).settings = s.settings ∧
    (l.foldl (fun s q => s.cancelOne q) s).bookCopy = s.bookCopy ∧
    (l.foldl (fun s q => s.cancelOne q) s).book = s.book ∧
    (l.foldl (fun s q => s.cancelOne q) s).linePin = s.linePin ∧
    (l.foldl (fun s q => s.cancelOne q) s).chains = s.chains ∧
    (l.foldl (fun s q => s.cancelOne q) s).screens = s.screens ∧
    (l.foldl (fun s q => s.cancelOne q) s).capLoad = s.capLoad ∧
    (l.foldl (fun s q => s.cancelOne q) s).blinkOn = s.blinkOn ∧
    (l.foldl (fun s q => s.cancelOne q) s).blinkRunning = s.blinkRunning ∧
    (l.foldl (fun s q => s.cancelOne q) s).streams = s.streams ∧
    (l.foldl (fun s q => s.cancelOne q) s).link = s.link ∧
    (l.foldl (fun s q => s.cancelOne q) s).vehicle = s.vehicle ∧
    (l.foldl (fun s q => s.cancelOne q) s).monitor = s.monitor ∧
    (l.foldl (fun s q => s.cancelOne q) s).takeover = s.takeover ∧
    (l.foldl (fun s q => s.cancelOne q) s).camera = s.camera ∧
    (l.foldl (fun s q => s.cancelOne q) s).guide = s.guide ∧
    (l.foldl (fun s q => s.cancelOne q) s).status = s.status ∧
    (l.foldl (fun s q => s.cancelOne q) s).freeIx = s.freeIx ∧
    (l.foldl (fun s q => s.cancelOne q) s).regs.run = s.regs.run ∧
    (l.foldl (fun s q => s.cancelOne q) s).regs.standby = s.regs.standby ∧
    (l.foldl (fun s q => s.cancelOne q) s).regs.freeze = s.regs.freeze := by
  induction l generalizing s with
  | nil => exact ⟨rfl, rfl, rfl, rfl, rfl, rfl, rfl, rfl, rfl, rfl, rfl, rfl, rfl, rfl, rfl, rfl, rfl, rfl, rfl, rfl, rfl, rfl, rfl⟩
  | cons x t ih => have := ih (s.cancelOne x); simpa using this

@[simp] theorem State.dealChime_frame (s : State) (h : Handed ChimeBody) (b : Bool) :
    (s.dealChime h b).pending = s.pending ∧ (s.dealChime h b).runState = s.runState ∧
    (s.dealChime h b).settings = s.settings ∧ (s.dealChime h b).bookCopy = s.bookCopy ∧
    (s.dealChime h b).book = s.book ∧
    (s.dealChime h b).linePin = s.linePin ∧ (s.dealChime h b).chains = s.chains ∧
    (s.dealChime h b).screens = s.screens ∧ (s.dealChime h b).capLoad = s.capLoad ∧
    (s.dealChime h b).blinkOn = s.blinkOn ∧ (s.dealChime h b).blinkRunning = s.blinkRunning ∧
    (s.dealChime h b).streams = s.streams ∧ (s.dealChime h b).link = s.link ∧ (s.dealChime h b).vehicle = s.vehicle ∧
    (s.dealChime h b).monitor = s.monitor ∧ (s.dealChime h b).takeover = s.takeover ∧
    (s.dealChime h b).camera = s.camera ∧ (s.dealChime h b).guide = s.guide ∧ (s.dealChime h b).status = s.status ∧
    (s.dealChime h b).freeIx = s.freeIx ∧ (s.dealChime h b).regs.run = s.regs.run ∧
    (s.dealChime h b).regs.standby = s.regs.standby ∧ (s.dealChime h b).regs.freeze = s.regs.freeze := by
  unfold State.dealChime
  simp only
  (repeat' split) <;> simp

@[simp] theorem State.dealChimes_frame (s : State) (l : List (Handed ChimeBody)) :
    (s.dealChimes l).pending = s.pending ∧ (s.dealChimes l).runState = s.runState ∧
    (s.dealChimes l).settings = s.settings ∧ (s.dealChimes l).bookCopy = s.bookCopy ∧ (s.dealChimes l).book = s.book ∧
    (s.dealChimes l).linePin = s.linePin ∧
    (s.dealChimes l).chains = s.chains ∧ (s.dealChimes l).screens = s.screens ∧
    (s.dealChimes l).capLoad = s.capLoad ∧ (s.dealChimes l).blinkOn = s.blinkOn ∧
    (s.dealChimes l).blinkRunning = s.blinkRunning ∧ (s.dealChimes l).streams = s.streams ∧
    (s.dealChimes l).link = s.link ∧ (s.dealChimes l).vehicle = s.vehicle ∧ (s.dealChimes l).monitor = s.monitor ∧
    (s.dealChimes l).takeover = s.takeover ∧ (s.dealChimes l).camera = s.camera ∧ (s.dealChimes l).guide = s.guide ∧
    (s.dealChimes l).status = s.status ∧ (s.dealChimes l).freeIx = s.freeIx ∧
    (s.dealChimes l).regs.run = s.regs.run ∧ (s.dealChimes l).regs.standby = s.regs.standby ∧
    (s.dealChimes l).regs.freeze = s.regs.freeze := by
  induction l generalizing s with
  | nil => exact ⟨rfl, rfl, rfl, rfl, rfl, rfl, rfl, rfl, rfl, rfl, rfl, rfl, rfl, rfl, rfl, rfl, rfl, rfl, rfl, rfl, rfl, rfl, rfl⟩
  | cons x t ih =>
    cases t with
    | nil => simp [State.dealChimes]
    | cons y t => have := ih (s.dealChime x false); simpa [State.dealChimes] using this

@[simp] theorem State.pollChimes_frame (s : State) (e : LinkErrs) :
    (s.pollChimes e).pending = s.pending ∧ (s.pollChimes e).runState = s.runState ∧
    (s.pollChimes e).settings = s.settings ∧ (s.pollChimes e).bookCopy = s.bookCopy ∧ (s.pollChimes e).book = s.book ∧
    (s.pollChimes e).linePin = s.linePin ∧
    (s.pollChimes e).screens = s.screens ∧ (s.pollChimes e).capLoad = s.capLoad ∧
    (s.pollChimes e).blinkOn = s.blinkOn ∧ (s.pollChimes e).blinkRunning = s.blinkRunning ∧
    (s.pollChimes e).streams = s.streams ∧ (s.pollChimes e).link = s.link ∧ (s.pollChimes e).vehicle = s.vehicle ∧
    (s.pollChimes e).monitor = s.monitor ∧ (s.pollChimes e).takeover = s.takeover ∧
    (s.pollChimes e).camera = s.camera ∧ (s.pollChimes e).guide = s.guide ∧ (s.pollChimes e).status = s.status ∧
    (s.pollChimes e).regs.run = s.regs.run ∧ (s.pollChimes e).regs.standby = s.regs.standby ∧
    (s.pollChimes e).regs.freeze = s.regs.freeze := by
  refine ⟨?_, ?_, ?_, ?_, ?_, ?_, ?_, ?_, ?_, ?_, ?_, ?_, ?_, ?_, ?_, ?_, ?_, ?_, ?_, ?_, ?_⟩ <;>
  (unfold State.pollChimes; first | (simp; done) | rfl |
    ((try dsimp only); (repeat' split) <;> first | (simp; done) | rfl | (simp_all; done)))

@[simp] theorem State.uiBegin_frame (s : State) :
    s.uiBegin.pending = s.pending ∧ s.uiBegin.runState = s.runState ∧ s.uiBegin.settings = s.settings ∧
    s.uiBegin.bookCopy = s.bookCopy ∧
    s.uiBegin.book = s.book ∧ s.uiBegin.linePin = s.linePin ∧ s.uiBegin.chains = s.chains ∧
    s.uiBegin.screens = s.screens ∧ s.uiBegin.capLoad = s.capLoad ∧ s.uiBegin.blinkOn = s.blinkOn ∧
    s.uiBegin.blinkRunning = s.blinkRunning ∧ s.uiBegin.streams = s.streams ∧ s.uiBegin.link = s.link ∧
    s.uiBegin.vehicle = s.vehicle ∧ s.uiBegin.monitor = s.monitor ∧ s.uiBegin.takeover = s.takeover ∧
    s.uiBegin.camera = s.camera ∧ s.uiBegin.guide = s.guide ∧ s.uiBegin.status = s.status ∧
    s.uiBegin.freeIx = s.freeIx ∧ s.uiBegin.regs.run = s.regs.run ∧ s.uiBegin.regs.standby = s.regs.standby ∧
    s.uiBegin.regs.freeze = s.regs.freeze := by
  refine ⟨?_, ?_, ?_, ?_, ?_, ?_, ?_, ?_, ?_, ?_, ?_, ?_, ?_, ?_, ?_, ?_, ?_, ?_, ?_, ?_, ?_, ?_, ?_⟩ <;>
  (unfold State.uiBegin; first | (simp; done) | rfl |
    ((try dsimp only); (repeat' split) <;> first | (simp; done) | rfl | (simp_all; done)))

@[simp] theorem State.pushBack_frame (s : State) :
    s.pushBack.pending = s.pending ∧ s.pushBack.runState = s.runState ∧ s.pushBack.settings = s.settings ∧
    s.pushBack.bookCopy = s.bookCopy ∧
    s.pushBack.book = s.book ∧ s.pushBack.linePin = s.linePin ∧ s.pushBack.chains = s.chains ∧
    s.pushBack.screens = s.screens ∧ s.pushBack.capLoad = s.capLoad ∧ s.pushBack.blinkOn = s.blinkOn ∧
    s.pushBack.blinkRunning = s.blinkRunning ∧ s.pushBack.streams = s.streams ∧ s.pushBack.link = s.link ∧
    s.pushBack.vehicle = s.vehicle ∧ s.pushBack.monitor = s.monitor ∧ s.pushBack.takeover = s.takeover ∧
    s.pushBack.camera = s.camera ∧ s.pushBack.guide = s.guide ∧ s.pushBack.status = s.status ∧
    s.pushBack.freeIx = s.freeIx ∧ s.pushBack.regs.run = s.regs.run ∧ s.pushBack.regs.standby = s.regs.standby ∧
    s.pushBack.regs.freeze = s.regs.freeze := by
  refine ⟨?_, ?_, ?_, ?_, ?_, ?_, ?_, ?_, ?_, ?_, ?_, ?_, ?_, ?_, ?_, ?_, ?_, ?_, ?_, ?_, ?_, ?_, ?_⟩ <;>
  (unfold State.pushBack; first | (simp; done) | rfl |
    ((try dsimp only); (repeat' split) <;> first | (simp; done) | rfl | (simp_all; done)))

@[simp] theorem State.alertChoice_frame (s : State) :
    s.alertChoice.pending = s.pending ∧ s.alertChoice.runState = s.runState ∧ s.alertChoice.settings = s.settings ∧
    s.alertChoice.bookCopy = s.bookCopy ∧
    s.alertChoice.book = s.book ∧ s.alertChoice.linePin = s.linePin ∧ s.alertChoice.chains = s.chains ∧
    s.alertChoice.screens = s.screens ∧ s.alertChoice.capLoad = s.capLoad ∧ s.alertChoice.blinkOn = s.blinkOn ∧
    s.alertChoice.blinkRunning = s.blinkRunning ∧ s.alertChoice.streams = s.streams ∧ s.alertChoice.link = s.link ∧
    s.alertChoice.vehicle = s.vehicle ∧ s.alertChoice.monitor = s.monitor ∧ s.alertChoice.takeover = s.takeover ∧
    s.alertChoice.camera = s.camera ∧ s.alertChoice.guide = s.guide ∧ s.alertChoice.status = s.status ∧
    s.alertChoice.freeIx = s.freeIx ∧ s.alertChoice.regs.run = s.regs.run ∧
    s.alertChoice.regs.standby = s.regs.standby ∧ s.alertChoice.regs.freeze = s.regs.freeze := by
  refine ⟨?_, ?_, ?_, ?_, ?_, ?_, ?_, ?_, ?_, ?_, ?_, ?_, ?_, ?_, ?_, ?_, ?_, ?_, ?_, ?_, ?_, ?_, ?_⟩ <;>
  (unfold State.alertChoice; first | (simp; done) | rfl |
    ((try dsimp only); (repeat' split) <;> first | (simp; done) | rfl | (simp_all; done)))

@[simp] theorem State.chimeTick_frame (s : State) (e : LinkErrs) :
    (s.chimeTick e).pending = s.pending ∧ (s.chimeTick e).runState = s.runState ∧
    (s.chimeTick e).settings = s.settings ∧ (s.chimeTick e).bookCopy = s.bookCopy ∧ (s.chimeTick e).book = s.book ∧
    (s.chimeTick e).linePin = s.linePin ∧
    (s.chimeTick e).screens = s.screens ∧ (s.chimeTick e).capLoad = s.capLoad ∧ (s.chimeTick e).blinkOn = s.blinkOn ∧
    (s.chimeTick e).blinkRunning = s.blinkRunning ∧ (s.chimeTick e).streams = s.streams ∧
    (s.chimeTick e).link = s.link ∧ (s.chimeTick e).vehicle = s.vehicle ∧ (s.chimeTick e).monitor = s.monitor ∧
    (s.chimeTick e).takeover = s.takeover ∧ (s.chimeTick e).camera = s.camera ∧ (s.chimeTick e).guide = s.guide ∧
    (s.chimeTick e).status = s.status ∧ (s.chimeTick e).regs.run = s.regs.run ∧
    (s.chimeTick e).regs.standby = s.regs.standby ∧ (s.chimeTick e).regs.freeze = s.regs.freeze := by
  refine ⟨?_, ?_, ?_, ?_, ?_, ?_, ?_, ?_, ?_, ?_, ?_, ?_, ?_, ?_, ?_, ?_, ?_, ?_, ?_, ?_, ?_⟩ <;>
  (unfold State.chimeTick; first | (simp; done) | rfl |
    ((try dsimp only); (repeat' split) <;> first | (simp; done) | rfl | (simp_all; done)))

@[simp] theorem State.alertComplete_frame (s : State) :
    s.alertComplete.pending = s.pending ∧ s.alertComplete.runState = s.runState ∧
    s.alertComplete.settings = s.settings ∧ s.alertComplete.bookCopy = s.bookCopy ∧ s.alertComplete.book = s.book ∧
    s.alertComplete.linePin = s.linePin ∧
    s.alertComplete.chains = s.chains ∧ s.alertComplete.screens = s.screens ∧ s.alertComplete.capLoad = s.capLoad ∧
    s.alertComplete.blinkOn = s.blinkOn ∧ s.alertComplete.blinkRunning = s.blinkRunning ∧
    s.alertComplete.streams = s.streams ∧ s.alertComplete.link = s.link ∧ s.alertComplete.vehicle = s.vehicle ∧
    s.alertComplete.monitor = s.monitor ∧ s.alertComplete.takeover = s.takeover ∧ s.alertComplete.camera = s.camera ∧
    s.alertComplete.guide = s.guide ∧ s.alertComplete.status = s.status ∧ s.alertComplete.freeIx = s.freeIx ∧
    s.alertComplete.regs.run = s.regs.run ∧ s.alertComplete.regs.standby = s.regs.standby ∧
    s.alertComplete.regs.freeze = s.regs.freeze := by
  refine ⟨?_, ?_, ?_, ?_, ?_, ?_, ?_, ?_, ?_, ?_, ?_, ?_, ?_, ?_, ?_, ?_, ?_, ?_, ?_, ?_, ?_, ?_, ?_⟩ <;>
  (unfold State.alertComplete; first | (simp; done) | rfl |
    ((try dsimp only); (repeat' split) <;> first | (simp; done) | rfl | (simp_all; done)))

@[simp] theorem State.uiComplete_frame (s : State) :
    s.uiComplete.pending = s.pending ∧ s.uiComplete.runState = s.runState ∧ s.uiComplete.settings = s.settings ∧
    s.uiComplete.bookCopy = s.bookCopy ∧
    s.uiComplete.book = s.book ∧ s.uiComplete.linePin = s.linePin ∧ s.uiComplete.chains = s.chains ∧
    s.uiComplete.screens = s.screens ∧ s.uiComplete.capLoad = s.capLoad ∧ s.uiComplete.blinkOn = s.blinkOn ∧
    s.uiComplete.blinkRunning = s.blinkRunning ∧ s.uiComplete.streams = s.streams ∧ s.uiComplete.link = s.link ∧
    s.uiComplete.vehicle = s.vehicle ∧ s.uiComplete.monitor = s.monitor ∧ s.uiComplete.takeover = s.takeover ∧
    s.uiComplete.camera = s.camera ∧ s.uiComplete.guide = s.guide ∧ s.uiComplete.status = s.status ∧
    s.uiComplete.freeIx = s.freeIx ∧ s.uiComplete.regs.run = s.regs.run ∧
    s.uiComplete.regs.standby = s.regs.standby ∧ s.uiComplete.regs.freeze = s.regs.freeze := by
  refine ⟨?_, ?_, ?_, ?_, ?_, ?_, ?_, ?_, ?_, ?_, ?_, ?_, ?_, ?_, ?_, ?_, ?_, ?_, ?_, ?_, ?_, ?_, ?_⟩ <;>
  (unfold State.uiComplete; first | (simp; done) | rfl |
    ((try dsimp only); (repeat' split) <;> first | (simp; done) | rfl | (simp_all; done)))

@[simp] theorem State.sampleEvent_frame (s : State) :
    s.sampleEvent.pending = s.pending ∧ s.sampleEvent.runState = s.runState ∧ s.sampleEvent.settings = s.settings ∧
    s.sampleEvent.bookCopy = s.bookCopy ∧
    s.sampleEvent.book = s.book ∧ s.sampleEvent.linePin = s.linePin ∧ s.sampleEvent.chains = s.chains ∧
    s.sampleEvent.screens = s.screens ∧ s.sampleEvent.capLoad = s.capLoad ∧ s.sampleEvent.blinkOn = s.blinkOn ∧
    s.sampleEvent.blinkRunning = s.blinkRunning ∧ s.sampleEvent.streams = s.streams ∧ s.sampleEvent.link = s.link ∧
    s.sampleEvent.vehicle = s.vehicle ∧ s.sampleEvent.monitor = s.monitor ∧ s.sampleEvent.takeover = s.takeover ∧
    s.sampleEvent.camera = s.camera ∧ s.sampleEvent.guide = s.guide ∧ s.sampleEvent.status = s.status ∧
    s.sampleEvent.freeIx = s.freeIx ∧ s.sampleEvent.regs.run = s.regs.run ∧
    s.sampleEvent.regs.standby = s.regs.standby ∧ s.sampleEvent.regs.freeze = s.regs.freeze := by
  refine ⟨?_, ?_, ?_, ?_, ?_, ?_, ?_, ?_, ?_, ?_, ?_, ?_, ?_, ?_, ?_, ?_, ?_, ?_, ?_, ?_, ?_, ?_, ?_⟩ <;>
  (unfold State.sampleEvent; first | (simp; done) | rfl |
    ((try dsimp only); (repeat' split) <;> first | (simp; done) | rfl | (simp_all; done)))

@[simp] theorem State.chimeStandby_frame (s : State) :
    s.chimeStandby.pending = s.pending ∧ s.chimeStandby.runState = s.runState ∧
    s.chimeStandby.settings = s.settings ∧ s.chimeStandby.bookCopy = s.bookCopy ∧ s.chimeStandby.book = s.book ∧
    s.chimeStandby.linePin = s.linePin ∧
    s.chimeStandby.chains = s.chains ∧ s.chimeStandby.screens = s.screens ∧ s.chimeStandby.capLoad = s.capLoad ∧
    s.chimeStandby.blinkOn = s.blinkOn ∧ s.chimeStandby.blinkRunning = s.blinkRunning ∧
    s.chimeStandby.streams = s.streams ∧ s.chimeStandby.link = s.link ∧ s.chimeStandby.vehicle = s.vehicle ∧
    s.chimeStandby.monitor = s.monitor ∧ s.chimeStandby.takeover = s.takeover ∧ s.chimeStandby.camera = s.camera ∧
    s.chimeStandby.guide = s.guide ∧ s.chimeStandby.chime = s.chime.silence ∧ s.chimeStandby.status = s.status ∧ s.chimeStandby.freeIx = s.freeIx ∧
    s.chimeStandby.regs.run = s.regs.run ∧ s.chimeStandby.regs.standby = s.regs.standby ∧
    s.chimeStandby.regs.freeze = s.regs.freeze := by
  have h := (entries_chimeStandby s).frame
  simpa using h

@[simp] theorem State.chimeStop_frame (s : State) :
    s.chimeStop.pending = s.pending ∧ s.chimeStop.runState = s.runState ∧ s.chimeStop.settings = s.settings ∧
    s.chimeStop.bookCopy = s.bookCopy ∧
    s.chimeStop.book = s.book ∧ s.chimeStop.linePin = s.linePin ∧ s.chimeStop.chains = s.chains ∧
    s.chimeStop.screens = s.screens ∧ s.chimeStop.capLoad = s.capLoad ∧ s.chimeStop.blinkOn = s.blinkOn ∧
    s.chimeStop.blinkRunning = s.blinkRunning ∧ s.chimeStop.streams = s.streams ∧ s.chimeStop.link = s.link ∧
    s.chimeStop.vehicle = s.vehicle ∧ s.chimeStop.monitor = s.monitor ∧ s.chimeStop.takeover = s.takeover ∧
    s.chimeStop.camera = s.camera ∧ s.chimeStop.guide = s.guide ∧ s.chimeStop.chime = s.chime.silence ∧ s.chimeStop.status = s.status ∧
    s.chimeStop.freeIx = s.freeIx ∧ s.chimeStop.regs.run = s.regs.run ∧ s.chimeStop.regs.standby = s.regs.standby ∧
    s.chimeStop.regs.freeze = s.regs.freeze := by
  have h := (entries_chimeStop s).frame
  simpa using h

@[simp] theorem State.enterStandby_frame (s : State) :
    s.enterStandby.pending = s.pending ∧ s.enterStandby.settings = s.settings ∧ s.enterStandby.bookCopy = s.bookCopy ∧
    s.enterStandby.book = s.book ∧
    s.enterStandby.linePin = s.linePin ∧ s.enterStandby.chains = s.chains ∧ s.enterStandby.blinkOn = s.blinkOn ∧
    s.enterStandby.blinkRunning = s.blinkRunning ∧ s.enterStandby.streams = s.streams ∧
    s.enterStandby.link = s.link ∧ s.enterStandby.vehicle = s.vehicle ∧ s.enterStandby.monitor = s.monitor ∧
    s.enterStandby.guide = s.guide ∧ s.enterStandby.status = s.status ∧ s.enterStandby.freeIx = s.freeIx ∧
    s.enterStandby.regs.run = s.regs.run ∧ s.enterStandby.regs.standby = s.regs.standby ∧
    s.enterStandby.regs.freeze = s.regs.freeze := by
  refine ⟨?_, ?_, ?_, ?_, ?_, ?_, ?_, ?_, ?_, ?_, ?_, ?_, ?_, ?_, ?_, ?_, ?_, ?_⟩ <;>
  (unfold State.enterStandby; first | (simp; done) | rfl |
    ((try dsimp only); (repeat' split) <;> first | (simp; done) | rfl | (simp_all; done)))

@[simp] theorem State.resume_frame (s : State) :
    s.resume.pending = s.pending ∧ s.resume.settings = s.settings ∧ s.resume.bookCopy = s.bookCopy ∧
    s.resume.book = s.book ∧
    s.resume.linePin = s.linePin ∧ s.resume.mem = s.mem ∧ s.resume.chains = s.chains ∧ s.resume.holds = s.holds ∧
    s.resume.capLoad = s.capLoad ∧ s.resume.blinkOn = s.blinkOn ∧ s.resume.blinkRunning = s.blinkRunning ∧
    s.resume.link = s.link ∧ s.resume.vehicle = s.vehicle ∧ s.resume.monitor = s.monitor ∧
    s.resume.takeover = s.takeover ∧ s.resume.camera = s.camera ∧ s.resume.guide = s.guide ∧
    s.resume.status = s.status ∧ s.resume.freeIx = s.freeIx ∧ s.resume.regs.run = s.regs.run ∧
    s.resume.regs.freeze = s.regs.freeze := by
  refine ⟨?_, ?_, ?_, ?_, ?_, ?_, ?_, ?_, ?_, ?_, ?_, ?_, ?_, ?_, ?_, ?_, ?_, ?_, ?_, ?_, ?_⟩ <;>
  (unfold State.resume; first | (simp; done) | rfl |
    ((try dsimp only); (repeat' split) <;> first | (simp; done) | rfl | (simp_all; done)))

@[simp] theorem State.setTakeover_frame (s : State) (t : TakeoverState) :
    (s.setTakeover t).pending = s.pending ∧ (s.setTakeover t).runState = s.runState ∧
    (s.setTakeover t).settings = s.settings ∧ (s.setTakeover t).bookCopy = s.bookCopy ∧
    (s.setTakeover t).book = s.book ∧
    (s.setTakeover t).linePin = s.linePin ∧ (s.setTakeover t).mem = s.mem ∧ (s.setTakeover t).chains = s.chains ∧
    (s.setTakeover t).holds = s.holds ∧ (s.setTakeover t).screens = s.screens ∧
    (s.setTakeover t).capLoad = s.capLoad ∧ (s.setTakeover t).blinkOn = s.blinkOn ∧
    (s.setTakeover t).blinkRunning = s.blinkRunning ∧ (s.setTakeover t).streams = s.streams ∧
    (s.setTakeover t).link = s.link ∧ (s.setTakeover t).vehicle = s.vehicle ∧ (s.setTakeover t).monitor = s.monitor ∧
    (s.setTakeover t).camera = s.camera ∧ (s.setTakeover t).guide = s.guide ∧ (s.setTakeover t).status = s.status ∧
    (s.setTakeover t).freeIx = s.freeIx ∧ (s.setTakeover t).regs.run = s.regs.run ∧
    (s.setTakeover t).regs.standby = s.regs.standby ∧ (s.setTakeover t).regs.freeze = s.regs.freeze := by
  refine ⟨?_, ?_, ?_, ?_, ?_, ?_, ?_, ?_, ?_, ?_, ?_, ?_, ?_, ?_, ?_, ?_, ?_, ?_, ?_, ?_, ?_, ?_, ?_, ?_⟩ <;>
  (unfold State.setTakeover; first | (simp; done) | rfl |
    ((try dsimp only); (repeat' split) <;> first | (simp; done) | rfl | (simp_all; done)))

@[simp] theorem State.takeoverStart_frame (s : State) :
    s.takeoverStart.pending = s.pending ∧ s.takeoverStart.runState = s.runState ∧
    s.takeoverStart.settings = s.settings ∧ s.takeoverStart.bookCopy = s.bookCopy ∧ s.takeoverStart.book = s.book ∧
    s.takeoverStart.linePin = s.linePin ∧
    s.takeoverStart.mem = s.mem ∧ s.takeoverStart.chains = s.chains ∧ s.takeoverStart.holds = s.holds ∧
    s.takeoverStart.screens = s.screens ∧ s.takeoverStart.blinkOn = s.blinkOn ∧
    s.takeoverStart.blinkRunning = s.blinkRunning ∧ s.takeoverStart.streams = s.streams ∧
    s.takeoverStart.link = s.link ∧ s.takeoverStart.vehicle = s.vehicle ∧ s.takeoverStart.monitor = s.monitor ∧
    s.takeoverStart.status = s.status ∧ s.takeoverStart.freeIx = s.freeIx ∧ s.takeoverStart.regs.run = s.regs.run ∧
    s.takeoverStart.regs.standby = s.regs.standby ∧ s.takeoverStart.regs.freeze = s.regs.freeze := by
  refine ⟨?_, ?_, ?_, ?_, ?_, ?_, ?_, ?_, ?_, ?_, ?_, ?_, ?_, ?_, ?_, ?_, ?_, ?_, ?_, ?_, ?_⟩ <;>
  (unfold State.takeoverStart; first | (simp; done) | rfl |
    ((try dsimp only); (repeat' split) <;> first | (simp; done) | rfl | (simp_all; done)))

@[simp] theorem State.backToActive_frame (s : State) :
    s.backToActive.pending = s.pending ∧ s.backToActive.runState = s.runState ∧
    s.backToActive.settings = s.settings ∧ s.backToActive.bookCopy = s.bookCopy ∧ s.backToActive.book = s.book ∧
    s.backToActive.linePin = s.linePin ∧
    s.backToActive.mem = s.mem ∧ s.backToActive.chains = s.chains ∧ s.backToActive.holds = s.holds ∧
    s.backToActive.screens = s.screens ∧ s.backToActive.capLoad = s.capLoad ∧ s.backToActive.blinkOn = s.blinkOn ∧
    s.backToActive.blinkRunning = s.blinkRunning ∧ s.backToActive.streams = s.streams ∧
    s.backToActive.link = s.link ∧ s.backToActive.vehicle = s.vehicle ∧ s.backToActive.monitor = s.monitor ∧
    s.backToActive.camera = s.camera ∧ s.backToActive.guide = s.guide ∧ s.backToActive.status = s.status ∧
    s.backToActive.freeIx = s.freeIx ∧ s.backToActive.regs.run = s.regs.run ∧
    s.backToActive.regs.standby = s.regs.standby ∧ s.backToActive.regs.freeze = s.regs.freeze := by
  refine ⟨?_, ?_, ?_, ?_, ?_, ?_, ?_, ?_, ?_, ?_, ?_, ?_, ?_, ?_, ?_, ?_, ?_, ?_, ?_, ?_, ?_, ?_, ?_, ?_⟩ <;>
  (unfold State.backToActive; first | (simp; done) | rfl |
    ((try dsimp only); (repeat' split) <;> first | (simp; done) | rfl | (simp_all; done)))

@[simp] theorem State.toNormal_frame (s : State) :
    s.toNormal.pending = s.pending ∧ s.toNormal.runState = s.runState ∧ s.toNormal.settings = s.settings ∧
    s.toNormal.bookCopy = s.bookCopy ∧
    s.toNormal.book = s.book ∧ s.toNormal.linePin = s.linePin ∧ s.toNormal.mem = s.mem ∧
    s.toNormal.chains = s.chains ∧ s.toNormal.holds = s.holds ∧ s.toNormal.screens = s.screens ∧
    s.toNormal.blinkOn = s.blinkOn ∧ s.toNormal.blinkRunning = s.blinkRunning ∧ s.toNormal.streams = s.streams ∧
    s.toNormal.link = s.link ∧ s.toNormal.vehicle = s.vehicle ∧ s.toNormal.monitor = s.monitor ∧
    s.toNormal.guide = s.guide ∧ s.toNormal.status = s.status ∧ s.toNormal.freeIx = s.freeIx ∧
    s.toNormal.regs.run = s.regs.run ∧ s.toNormal.regs.standby = s.regs.standby ∧
    s.toNormal.regs.freeze = s.regs.freeze := by
  refine ⟨?_, ?_, ?_, ?_, ?_, ?_, ?_, ?_, ?_, ?_, ?_, ?_, ?_, ?_, ?_, ?_, ?_, ?_, ?_, ?_, ?_, ?_⟩ <;>
  (unfold State.toNormal; first | (simp; done) | rfl |
    ((try dsimp only); (repeat' split) <;> first | (simp; done) | rfl | (simp_all; done)))

@[simp] theorem State.releaseActive_frame (s : State) :
    s.releaseActive.pending = s.pending ∧ s.releaseActive.settings = s.settings ∧
    s.releaseActive.bookCopy = s.bookCopy ∧ s.releaseActive.book = s.book ∧
    s.releaseActive.linePin = s.linePin ∧ s.releaseActive.chains = s.chains ∧ s.releaseActive.blinkOn = s.blinkOn ∧
    s.releaseActive.blinkRunning = s.blinkRunning ∧ s.releaseActive.streams = s.streams ∧
    s.releaseActive.link = s.link ∧ s.releaseActive.vehicle = s.vehicle ∧ s.releaseActive.monitor = s.monitor ∧
    s.releaseActive.guide = s.guide ∧ s.releaseActive.status = s.status ∧ s.releaseActive.freeIx = s.freeIx ∧
    s.releaseActive.regs.run = s.regs.run ∧ s.releaseActive.regs.standby = s.regs.standby ∧
    s.releaseActive.regs.freeze = s.regs.freeze := by
  refine ⟨?_, ?_, ?_, ?_, ?_, ?_, ?_, ?_, ?_, ?_, ?_, ?_, ?_, ?_, ?_, ?_, ?_, ?_⟩ <;>
  (unfold State.releaseActive; first | (simp; done) | rfl |
    ((try dsimp only); (repeat' split) <;> first | (simp; done) | rfl | (simp_all; done)))

@[simp] theorem State.reverseEngaged_frame (s : State) :
    s.reverseEngaged.pending = s.pending ∧ s.reverseEngaged.settings = s.settings ∧
    s.reverseEngaged.bookCopy = s.bookCopy ∧ s.reverseEngaged.book = s.book ∧
    s.reverseEngaged.linePin = s.linePin ∧ s.reverseEngaged.mem = s.mem ∧ s.reverseEngaged.chains = s.chains ∧
    s.reverseEngaged.holds = s.holds ∧ s.reverseEngaged.blinkOn = s.blinkOn ∧
    s.reverseEngaged.blinkRunning = s.blinkRunning ∧ s.reverseEngaged.link = s.link ∧
    s.reverseEngaged.vehicle = s.vehicle ∧ s.reverseEngaged.monitor = s.monitor ∧
    s.reverseEngaged.status = s.status ∧ s.reverseEngaged.freeIx = s.freeIx ∧
    s.reverseEngaged.regs.run = s.regs.run ∧ s.reverseEngaged.regs.freeze = s.regs.freeze := by
  refine ⟨?_, ?_, ?_, ?_, ?_, ?_, ?_, ?_, ?_, ?_, ?_, ?_, ?_, ?_, ?_, ?_, ?_⟩ <;>
  (unfold State.reverseEngaged; first | (simp; done) | rfl |
    ((try dsimp only); (repeat' split) <;> first | (simp; done) | rfl | (simp_all; done)))

@[simp] theorem State.reverseReleased_frame (s : State) :
    s.reverseReleased.pending = s.pending ∧ s.reverseReleased.settings = s.settings ∧
    s.reverseReleased.bookCopy = s.bookCopy ∧
    s.reverseReleased.book = s.book ∧ s.reverseReleased.linePin = s.linePin ∧ s.reverseReleased.chains = s.chains ∧
    s.reverseReleased.blinkOn = s.blinkOn ∧ s.reverseReleased.blinkRunning = s.blinkRunning ∧
    s.reverseReleased.streams = s.streams ∧ s.reverseReleased.link = s.link ∧ s.reverseReleased.vehicle = s.vehicle ∧
    s.reverseReleased.monitor = s.monitor ∧ s.reverseReleased.guide = s.guide ∧ s.reverseReleased.status = s.status ∧
    s.reverseReleased.freeIx = s.freeIx ∧ s.reverseReleased.regs.run = s.regs.run ∧
    s.reverseReleased.regs.standby = s.regs.standby ∧ s.reverseReleased.regs.freeze = s.regs.freeze := by
  refine ⟨?_, ?_, ?_, ?_, ?_, ?_, ?_, ?_, ?_, ?_, ?_, ?_, ?_, ?_, ?_, ?_, ?_, ?_⟩ <;>
  (unfold State.reverseReleased; first | (simp; done) | rfl |
    ((try dsimp only); (repeat' split) <;> first | (simp; done) | rfl | (simp_all; done)))

@[simp] theorem State.judgeReverse_frame (s : State) :
    s.judgeReverse.pending = s.pending ∧ s.judgeReverse.settings = s.settings ∧ s.judgeReverse.bookCopy = s.bookCopy ∧
    s.judgeReverse.book = s.book ∧
    s.judgeReverse.linePin = s.linePin ∧ s.judgeReverse.chains = s.chains ∧ s.judgeReverse.blinkOn = s.blinkOn ∧
    s.judgeReverse.blinkRunning = s.blinkRunning ∧ s.judgeReverse.link = s.link ∧
    s.judgeReverse.vehicle = s.vehicle ∧ s.judgeReverse.monitor = s.monitor ∧ s.judgeReverse.status = s.status ∧
    s.judgeReverse.freeIx = s.freeIx ∧ s.judgeReverse.regs.run = s.regs.run ∧
    s.judgeReverse.regs.freeze = s.regs.freeze := by
  refine ⟨?_, ?_, ?_, ?_, ?_, ?_, ?_, ?_, ?_, ?_, ?_, ?_, ?_, ?_, ?_⟩ <;>
  (unfold State.judgeReverse; first | (simp; done) | rfl |
    ((try dsimp only); (repeat' split) <;> first | (simp; done) | rfl | (simp_all; done)))

@[simp] theorem State.dismiss_frame (s : State) :
    s.dismiss.pending = s.pending ∧ s.dismiss.runState = s.runState ∧ s.dismiss.settings = s.settings ∧
    s.dismiss.bookCopy = s.bookCopy ∧
    s.dismiss.book = s.book ∧ s.dismiss.linePin = s.linePin ∧ s.dismiss.mem = s.mem ∧ s.dismiss.chains = s.chains ∧
    s.dismiss.holds = s.holds ∧ s.dismiss.screens = s.screens ∧ s.dismiss.blinkOn = s.blinkOn ∧
    s.dismiss.blinkRunning = s.blinkRunning ∧ s.dismiss.streams = s.streams ∧ s.dismiss.link = s.link ∧
    s.dismiss.vehicle = s.vehicle ∧ s.dismiss.monitor = s.monitor ∧ s.dismiss.guide = s.guide ∧
    s.dismiss.status = s.status ∧ s.dismiss.freeIx = s.freeIx ∧ s.dismiss.regs.run = s.regs.run ∧
    s.dismiss.regs.standby = s.regs.standby ∧ s.dismiss.regs.freeze = s.regs.freeze := by
  refine ⟨?_, ?_, ?_, ?_, ?_, ?_, ?_, ?_, ?_, ?_, ?_, ?_, ?_, ?_, ?_, ?_, ?_, ?_, ?_, ?_, ?_, ?_⟩ <;>
  (unfold State.dismiss; first | (simp; done) | rfl |
    ((try dsimp only); (repeat' split) <;> first | (simp; done) | rfl | (simp_all; done)))

@[simp] theorem State.requestStandby_frame (s : State) :
    s.requestStandby.pending = s.pending ∧ s.requestStandby.settings = s.settings ∧
    s.requestStandby.bookCopy = s.bookCopy ∧ s.requestStandby.book = s.book ∧
    s.requestStandby.linePin = s.linePin ∧ s.requestStandby.chains = s.chains ∧
    s.requestStandby.blinkOn = s.blinkOn ∧ s.requestStandby.blinkRunning = s.blinkRunning ∧
    s.requestStandby.streams = s.streams ∧ s.requestStandby.link = s.link ∧ s.requestStandby.vehicle = s.vehicle ∧
    s.requestStandby.monitor = s.monitor ∧ s.requestStandby.guide = s.guide ∧ s.requestStandby.status = s.status ∧
    s.requestStandby.freeIx = s.freeIx ∧ s.requestStandby.regs.run = s.regs.run ∧
    s.requestStandby.regs.standby = s.regs.standby ∧ s.requestStandby.regs.freeze = s.regs.freeze := by
  refine ⟨?_, ?_, ?_, ?_, ?_, ?_, ?_, ?_, ?_, ?_, ?_, ?_, ?_, ?_, ?_, ?_, ?_, ?_⟩ <;>
  (unfold State.requestStandby; first | (simp; done) | rfl |
    ((try dsimp only); (repeat' split) <;> first | (simp; done) | rfl | (simp_all; done)))

@[simp] theorem State.writeStandby_frame (s : State) (v : Bool) :
    (s.writeStandby v).pending = s.pending ∧ (s.writeStandby v).settings = s.settings ∧
    (s.writeStandby v).bookCopy = s.bookCopy ∧
    (s.writeStandby v).book = s.book ∧ (s.writeStandby v).linePin = s.linePin ∧
    (s.writeStandby v).chains = s.chains ∧ (s.writeStandby v).blinkOn = s.blinkOn ∧
    (s.writeStandby v).blinkRunning = s.blinkRunning ∧ (s.writeStandby v).link = s.link ∧
    (s.writeStandby v).vehicle = s.vehicle ∧ (s.writeStandby v).monitor = s.monitor ∧
    (s.writeStandby v).guide = s.guide ∧ (s.writeStandby v).status = s.status ∧
    (s.writeStandby v).freeIx = s.freeIx ∧ (s.writeStandby v).regs.run = s.regs.run ∧
    (s.writeStandby v).regs.freeze = s.regs.freeze := by
  refine ⟨?_, ?_, ?_, ?_, ?_, ?_, ?_, ?_, ?_, ?_, ?_, ?_, ?_, ?_, ?_, ?_⟩ <;>
  (unfold State.writeStandby; first | (simp; done) | rfl |
    ((try dsimp only); (repeat' split) <;> first | (simp; done) | rfl | (simp_all; done)))

@[simp] theorem State.discardFrame_frame (s : State) (e : CameraError) :
    (s.discardFrame e).pending = s.pending ∧ (s.discardFrame e).runState = s.runState ∧
    (s.discardFrame e).settings = s.settings ∧ (s.discardFrame e).bookCopy = s.bookCopy ∧
    (s.discardFrame e).book = s.book ∧
    (s.discardFrame e).linePin = s.linePin ∧ (s.discardFrame e).mem = s.mem ∧ (s.discardFrame e).chains = s.chains ∧
    (s.discardFrame e).holds = s.holds ∧ (s.discardFrame e).screens = s.screens ∧
    (s.discardFrame e).capLoad = s.capLoad ∧ (s.discardFrame e).blinkOn = s.blinkOn ∧
    (s.discardFrame e).blinkRunning = s.blinkRunning ∧ (s.discardFrame e).streams = s.streams ∧
    (s.discardFrame e).link = s.link ∧ (s.discardFrame e).vehicle = s.vehicle ∧
    (s.discardFrame e).monitor = s.monitor ∧ (s.discardFrame e).takeover = s.takeover ∧
    (s.discardFrame e).guide = s.guide ∧ (s.discardFrame e).chime = s.chime ∧ (s.discardFrame e).status = s.status ∧
    (s.discardFrame e).freeIx = s.freeIx ∧ (s.discardFrame e).regs.run = s.regs.run ∧
    (s.discardFrame e).regs.standby = s.regs.standby ∧ (s.discardFrame e).regs.freeze = s.regs.freeze := by
  refine ⟨?_, ?_, ?_, ?_, ?_, ?_, ?_, ?_, ?_, ?_, ?_, ?_, ?_, ?_, ?_, ?_, ?_, ?_, ?_, ?_, ?_, ?_, ?_, ?_, ?_⟩ <;>
  (unfold State.discardFrame; first | (simp; done) | rfl |
    ((try dsimp only); (repeat' split) <;> first | (simp; done) | rfl | (simp_all; done)))

@[simp] theorem State.writePixel_frame (s : State) (y c : Byte) :
    (s.writePixel y c).pending = s.pending ∧ (s.writePixel y c).runState = s.runState ∧
    (s.writePixel y c).settings = s.settings ∧ (s.writePixel y c).bookCopy = s.bookCopy ∧
    (s.writePixel y c).book = s.book ∧
    (s.writePixel y c).linePin = s.linePin ∧ (s.writePixel y c).chains = s.chains ∧
    (s.writePixel y c).holds = s.holds ∧ (s.writePixel y c).screens = s.screens ∧
    (s.writePixel y c).capLoad = s.capLoad ∧ (s.writePixel y c).blinkOn = s.blinkOn ∧
    (s.writePixel y c).blinkRunning = s.blinkRunning ∧ (s.writePixel y c).streams = s.streams ∧
    (s.writePixel y c).link = s.link ∧ (s.writePixel y c).vehicle = s.vehicle ∧
    (s.writePixel y c).monitor = s.monitor ∧ (s.writePixel y c).takeover = s.takeover ∧
    (s.writePixel y c).camera = s.camera ∧ (s.writePixel y c).guide = s.guide ∧ (s.writePixel y c).chime = s.chime ∧
    (s.writePixel y c).status = s.status ∧ (s.writePixel y c).freeIx = s.freeIx ∧
    (s.writePixel y c).regs.run = s.regs.run ∧ (s.writePixel y c).regs.standby = s.regs.standby ∧
    (s.writePixel y c).regs.freeze = s.regs.freeze := by
  refine ⟨?_, ?_, ?_, ?_, ?_, ?_, ?_, ?_, ?_, ?_, ?_, ?_, ?_, ?_, ?_, ?_, ?_, ?_, ?_, ?_, ?_, ?_, ?_, ?_, ?_⟩ <;>
  (unfold State.writePixel; first | (simp; done) | rfl |
    ((try dsimp only); (repeat' split) <;> first | (simp; done) | rfl | (simp_all; done)))

@[simp] theorem State.renew_frame (s : State) (k : Kind) (n : BitVec 4) :
    (s.renew k n).pending = s.pending ∧ (s.renew k n).runState = s.runState ∧ (s.renew k n).settings = s.settings ∧
    (s.renew k n).bookCopy = s.bookCopy ∧
    (s.renew k n).book = s.book ∧ (s.renew k n).linePin = s.linePin ∧ (s.renew k n).mem = s.mem ∧
    (s.renew k n).chains = s.chains ∧ (s.renew k n).holds = s.holds ∧ (s.renew k n).screens = s.screens ∧
    (s.renew k n).capLoad = s.capLoad ∧ (s.renew k n).blinkOn = s.blinkOn ∧
    (s.renew k n).blinkRunning = s.blinkRunning ∧ (s.renew k n).streams = s.streams ∧ (s.renew k n).link = s.link ∧
    (s.renew k n).monitor = s.monitor ∧ (s.renew k n).takeover = s.takeover ∧ (s.renew k n).camera = s.camera ∧
    (s.renew k n).guide = s.guide ∧ (s.renew k n).chime = s.chime ∧ (s.renew k n).status = s.status ∧
    (s.renew k n).freeIx = s.freeIx ∧ (s.renew k n).regs.run = s.regs.run ∧
    (s.renew k n).regs.standby = s.regs.standby ∧ (s.renew k n).regs.freeze = s.regs.freeze := by
  refine ⟨?_, ?_, ?_, ?_, ?_, ?_, ?_, ?_, ?_, ?_, ?_, ?_, ?_, ?_, ?_, ?_, ?_, ?_, ?_, ?_, ?_, ?_, ?_, ?_, ?_⟩ <;>
  (unfold State.renew; first | (simp; done) | rfl |
    ((try dsimp only); (repeat' split) <;> first | (simp; done) | rfl | (simp_all; done)))

@[simp] theorem State.judgeMotion_frame (s : State) :
    s.judgeMotion.pending = s.pending ∧ s.judgeMotion.runState = s.runState ∧ s.judgeMotion.settings = s.settings ∧
    s.judgeMotion.bookCopy = s.bookCopy ∧
    s.judgeMotion.book = s.book ∧ s.judgeMotion.linePin = s.linePin ∧ s.judgeMotion.mem = s.mem ∧
    s.judgeMotion.chains = s.chains ∧ s.judgeMotion.holds = s.holds ∧ s.judgeMotion.capLoad = s.capLoad ∧
    s.judgeMotion.blinkOn = s.blinkOn ∧ s.judgeMotion.blinkRunning = s.blinkRunning ∧
    s.judgeMotion.streams = s.streams ∧ s.judgeMotion.link = s.link ∧ s.judgeMotion.monitor = s.monitor ∧
    s.judgeMotion.takeover = s.takeover ∧ s.judgeMotion.camera = s.camera ∧ s.judgeMotion.guide = s.guide ∧
    s.judgeMotion.chime = s.chime ∧ s.judgeMotion.status = s.status ∧ s.judgeMotion.freeIx = s.freeIx ∧
    s.judgeMotion.regs.run = s.regs.run ∧ s.judgeMotion.regs.standby = s.regs.standby ∧
    s.judgeMotion.regs.freeze = s.regs.freeze := by
  refine ⟨?_, ?_, ?_, ?_, ?_, ?_, ?_, ?_, ?_, ?_, ?_, ?_, ?_, ?_, ?_, ?_, ?_, ?_, ?_, ?_, ?_, ?_, ?_, ?_⟩ <;>
  (unfold State.judgeMotion; first | (simp; done) | rfl |
    ((try dsimp only); (repeat' split) <;> first | (simp; done) | rfl | (simp_all; done)))

@[simp] theorem State.setZone_frame (s : State) (z : Zone) (d : Option Nat) :
    (s.setZone z d).pending = s.pending ∧ (s.setZone z d).runState = s.runState ∧
    (s.setZone z d).settings = s.settings ∧ (s.setZone z d).bookCopy = s.bookCopy ∧ (s.setZone z d).book = s.book ∧
    (s.setZone z d).linePin = s.linePin ∧
    (s.setZone z d).mem = s.mem ∧ (s.setZone z d).chains = s.chains ∧ (s.setZone z d).holds = s.holds ∧
    (s.setZone z d).screens = s.screens ∧ (s.setZone z d).capLoad = s.capLoad ∧ (s.setZone z d).blinkOn = s.blinkOn ∧
    (s.setZone z d).blinkRunning = s.blinkRunning ∧ (s.setZone z d).streams = s.streams ∧
    (s.setZone z d).link = s.link ∧ (s.setZone z d).vehicle = s.vehicle ∧ (s.setZone z d).monitor = s.monitor ∧
    (s.setZone z d).takeover = s.takeover ∧ (s.setZone z d).camera = s.camera ∧ (s.setZone z d).status = s.status ∧
    (s.setZone z d).freeIx = s.freeIx ∧ (s.setZone z d).regs.run = s.regs.run ∧
    (s.setZone z d).regs.standby = s.regs.standby ∧ (s.setZone z d).regs.freeze = s.regs.freeze := by
  refine ⟨?_, ?_, ?_, ?_, ?_, ?_, ?_, ?_, ?_, ?_, ?_, ?_, ?_, ?_, ?_, ?_, ?_, ?_, ?_, ?_, ?_, ?_, ?_, ?_⟩ <;>
  (unfold State.setZone; first | (simp; done) | rfl |
    ((try dsimp only); (repeat' split) <;> first | (simp; done) | rfl | (simp_all; done)))

@[simp] theorem State.acceptSteer_frame (s : State) (l : List Byte) (n : BitVec 4) :
    (s.acceptSteer l n).pending = s.pending ∧ (s.acceptSteer l n).runState = s.runState ∧
    (s.acceptSteer l n).settings = s.settings ∧ (s.acceptSteer l n).bookCopy = s.bookCopy ∧
    (s.acceptSteer l n).book = s.book ∧
    (s.acceptSteer l n).linePin = s.linePin ∧ (s.acceptSteer l n).mem = s.mem ∧
    (s.acceptSteer l n).chains = s.chains ∧ (s.acceptSteer l n).holds = s.holds ∧
    (s.acceptSteer l n).screens = s.screens ∧ (s.acceptSteer l n).capLoad = s.capLoad ∧
    (s.acceptSteer l n).blinkOn = s.blinkOn ∧ (s.acceptSteer l n).blinkRunning = s.blinkRunning ∧
    (s.acceptSteer l n).streams = s.streams ∧ (s.acceptSteer l n).link = s.link ∧
    (s.acceptSteer l n).monitor = s.monitor ∧ (s.acceptSteer l n).takeover = s.takeover ∧
    (s.acceptSteer l n).camera = s.camera ∧ (s.acceptSteer l n).chime = s.chime ∧
    (s.acceptSteer l n).status = s.status ∧ (s.acceptSteer l n).freeIx = s.freeIx ∧
    (s.acceptSteer l n).regs.run = s.regs.run ∧ (s.acceptSteer l n).regs.standby = s.regs.standby ∧
    (s.acceptSteer l n).regs.freeze = s.regs.freeze := by
  refine ⟨?_, ?_, ?_, ?_, ?_, ?_, ?_, ?_, ?_, ?_, ?_, ?_, ?_, ?_, ?_, ?_, ?_, ?_, ?_, ?_, ?_, ?_, ?_, ?_⟩ <;>
  (unfold State.acceptSteer; first | (simp; done) | rfl |
    ((try dsimp only); (repeat' split) <;> first | (simp; done) | rfl | (simp_all; done)))

@[simp] theorem State.acceptSpeed_frame (s : State) (l : List Byte) (n : BitVec 4) :
    (s.acceptSpeed l n).pending = s.pending ∧ (s.acceptSpeed l n).runState = s.runState ∧
    (s.acceptSpeed l n).settings = s.settings ∧ (s.acceptSpeed l n).bookCopy = s.bookCopy ∧
    (s.acceptSpeed l n).book = s.book ∧
    (s.acceptSpeed l n).linePin = s.linePin ∧ (s.acceptSpeed l n).mem = s.mem ∧
    (s.acceptSpeed l n).chains = s.chains ∧ (s.acceptSpeed l n).holds = s.holds ∧
    (s.acceptSpeed l n).blinkOn = s.blinkOn ∧ (s.acceptSpeed l n).blinkRunning = s.blinkRunning ∧
    (s.acceptSpeed l n).streams = s.streams ∧ (s.acceptSpeed l n).link = s.link ∧
    (s.acceptSpeed l n).monitor = s.monitor ∧ (s.acceptSpeed l n).guide = s.guide ∧
    (s.acceptSpeed l n).status = s.status ∧ (s.acceptSpeed l n).freeIx = s.freeIx ∧
    (s.acceptSpeed l n).regs.run = s.regs.run ∧ (s.acceptSpeed l n).regs.standby = s.regs.standby ∧
    (s.acceptSpeed l n).regs.freeze = s.regs.freeze := by
  refine ⟨?_, ?_, ?_, ?_, ?_, ?_, ?_, ?_, ?_, ?_, ?_, ?_, ?_, ?_, ?_, ?_, ?_, ?_, ?_, ?_⟩ <;>
  (unfold State.acceptSpeed; first | (simp; done) | rfl |
    ((try dsimp only); (repeat' split) <;> first | (simp; done) | rfl | (simp_all; done)))

@[simp] theorem State.acceptRange_frame (s : State) (l : List Byte) (n : BitVec 4) :
    (s.acceptRange l n).pending = s.pending ∧ (s.acceptRange l n).runState = s.runState ∧
    (s.acceptRange l n).settings = s.settings ∧ (s.acceptRange l n).bookCopy = s.bookCopy ∧
    (s.acceptRange l n).book = s.book ∧
    (s.acceptRange l n).linePin = s.linePin ∧ (s.acceptRange l n).mem = s.mem ∧
    (s.acceptRange l n).chains = s.chains ∧ (s.acceptRange l n).holds = s.holds ∧
    (s.acceptRange l n).screens = s.screens ∧ (s.acceptRange l n).capLoad = s.capLoad ∧
    (s.acceptRange l n).blinkOn = s.blinkOn ∧ (s.acceptRange l n).blinkRunning = s.blinkRunning ∧
    (s.acceptRange l n).streams = s.streams ∧ (s.acceptRange l n).link = s.link ∧
    (s.acceptRange l n).monitor = s.monitor ∧ (s.acceptRange l n).takeover = s.takeover ∧
    (s.acceptRange l n).camera = s.camera ∧ (s.acceptRange l n).status = s.status ∧
    (s.acceptRange l n).freeIx = s.freeIx ∧ (s.acceptRange l n).regs.run = s.regs.run ∧
    (s.acceptRange l n).regs.standby = s.regs.standby ∧ (s.acceptRange l n).regs.freeze = s.regs.freeze := by
  refine ⟨?_, ?_, ?_, ?_, ?_, ?_, ?_, ?_, ?_, ?_, ?_, ?_, ?_, ?_, ?_, ?_, ?_, ?_, ?_, ?_, ?_, ?_, ?_⟩ <;>
  (unfold State.acceptRange; first | (simp; done) | rfl |
    ((try dsimp only); (repeat' split) <;> first | (simp; done) | rfl | (simp_all; done)))

@[simp] theorem State.acceptGear_frame (s : State) (l : List Byte) (n : BitVec 4) :
    (s.acceptGear l n).pending = s.pending ∧ (s.acceptGear l n).settings = s.settings ∧
    (s.acceptGear l n).bookCopy = s.bookCopy ∧
    (s.acceptGear l n).book = s.book ∧ (s.acceptGear l n).linePin = s.linePin ∧
    (s.acceptGear l n).chains = s.chains ∧ (s.acceptGear l n).blinkOn = s.blinkOn ∧
    (s.acceptGear l n).blinkRunning = s.blinkRunning ∧ (s.acceptGear l n).link = s.link ∧
    (s.acceptGear l n).monitor = s.monitor ∧ (s.acceptGear l n).status = s.status ∧
    (s.acceptGear l n).freeIx = s.freeIx ∧ (s.acceptGear l n).regs.run = s.regs.run ∧
    (s.acceptGear l n).regs.freeze = s.regs.freeze := by
  refine ⟨?_, ?_, ?_, ?_, ?_, ?_, ?_, ?_, ?_, ?_, ?_, ?_, ?_, ?_⟩ <;>
  (unfold State.acceptGear; first | (simp; done) | rfl |
    ((try dsimp only); (repeat' split) <;> first | (simp; done) | rfl | (simp_all; done)))

@[simp] theorem State.acceptDim_frame (s : State) (l : List Byte) (n : BitVec 4) :
    (s.acceptDim l n).pending = s.pending ∧ (s.acceptDim l n).runState = s.runState ∧
    (s.acceptDim l n).settings = s.settings ∧ (s.acceptDim l n).bookCopy = s.bookCopy ∧
    (s.acceptDim l n).book = s.book ∧
    (s.acceptDim l n).linePin = s.linePin ∧ (s.acceptDim l n).mem = s.mem ∧ (s.acceptDim l n).chains = s.chains ∧
    (s.acceptDim l n).holds = s.holds ∧ (s.acceptDim l n).capLoad = s.capLoad ∧
    (s.acceptDim l n).blinkOn = s.blinkOn ∧ (s.acceptDim l n).blinkRunning = s.blinkRunning ∧
    (s.acceptDim l n).streams = s.streams ∧ (s.acceptDim l n).link = s.link ∧ (s.acceptDim l n).monitor = s.monitor ∧
    (s.acceptDim l n).takeover = s.takeover ∧ (s.acceptDim l n).camera = s.camera ∧
    (s.acceptDim l n).guide = s.guide ∧ (s.acceptDim l n).chime = s.chime ∧ (s.acceptDim l n).status = s.status ∧
    (s.acceptDim l n).freeIx = s.freeIx ∧ (s.acceptDim l n).regs.run = s.regs.run ∧
    (s.acceptDim l n).regs.standby = s.regs.standby ∧ (s.acceptDim l n).regs.freeze = s.regs.freeze := by
  refine ⟨?_, ?_, ?_, ?_, ?_, ?_, ?_, ?_, ?_, ?_, ?_, ?_, ?_, ?_, ?_, ?_, ?_, ?_, ?_, ?_, ?_, ?_, ?_, ?_⟩ <;>
  (unfold State.acceptDim; first | (simp; done) | rfl |
    ((try dsimp only); (repeat' split) <;> first | (simp; done) | rfl | (simp_all; done)))

@[simp] theorem State.accept_frame (s : State) (k : Kind) (l : List Byte) (n : BitVec 4) :
    (s.accept k l n).pending = s.pending ∧ (s.accept k l n).settings = s.settings ∧
    (s.accept k l n).bookCopy = s.bookCopy ∧ (s.accept k l n).book = s.book ∧
    (s.accept k l n).linePin = s.linePin ∧ (s.accept k l n).chains = s.chains ∧
    (s.accept k l n).blinkOn = s.blinkOn ∧ (s.accept k l n).blinkRunning = s.blinkRunning ∧
    (s.accept k l n).link = s.link ∧ (s.accept k l n).monitor = s.monitor ∧ (s.accept k l n).status = s.status ∧
    (s.accept k l n).freeIx = s.freeIx ∧ (s.accept k l n).regs.run = s.regs.run ∧
    (s.accept k l n).regs.freeze = s.regs.freeze := by
  cases k <;> simp [State.accept]

@[simp] theorem State.deliver_frame (s : State) (l : List Byte) (j : Judged) :
    (s.deliver l j).pending = s.pending ∧ (s.deliver l j).settings = s.settings ∧
    (s.deliver l j).bookCopy = s.bookCopy ∧ (s.deliver l j).book = s.book ∧
    (s.deliver l j).linePin = s.linePin ∧ (s.deliver l j).chains = s.chains ∧ (s.deliver l j).blinkOn = s.blinkOn ∧
    (s.deliver l j).blinkRunning = s.blinkRunning ∧ (s.deliver l j).monitor = s.monitor ∧
    (s.deliver l j).status = s.status ∧ (s.deliver l j).freeIx = s.freeIx ∧ (s.deliver l j).regs.run = s.regs.run ∧
    (s.deliver l j).regs.freeze = s.regs.freeze := by
  refine ⟨?_, ?_, ?_, ?_, ?_, ?_, ?_, ?_, ?_, ?_, ?_, ?_, ?_⟩ <;>
  (unfold State.deliver; first | (simp; done) | rfl |
    ((try dsimp only); (repeat' split) <;> first | (simp; done) | rfl | (simp_all; done)))

@[simp] theorem State.stale_frame (s : State) (k : Kind) :
    (s.stale k).pending = s.pending ∧ (s.stale k).runState = s.runState ∧ (s.stale k).settings = s.settings ∧
    (s.stale k).bookCopy = s.bookCopy ∧
    (s.stale k).book = s.book ∧ (s.stale k).linePin = s.linePin ∧ (s.stale k).mem = s.mem ∧
    (s.stale k).chains = s.chains ∧ (s.stale k).holds = s.holds ∧ (s.stale k).screens = s.screens ∧
    (s.stale k).capLoad = s.capLoad ∧ (s.stale k).blinkOn = s.blinkOn ∧ (s.stale k).blinkRunning = s.blinkRunning ∧
    (s.stale k).streams = s.streams ∧ (s.stale k).link = s.link ∧ (s.stale k).monitor = s.monitor ∧
    (s.stale k).takeover = s.takeover ∧ (s.stale k).camera = s.camera ∧ (s.stale k).guide = s.guide ∧
    (s.stale k).chime = s.chime ∧ (s.stale k).status = s.status ∧ (s.stale k).freeIx = s.freeIx ∧
    (s.stale k).regs.run = s.regs.run ∧ (s.stale k).regs.standby = s.regs.standby ∧
    (s.stale k).regs.freeze = s.regs.freeze := by
  refine ⟨?_, ?_, ?_, ?_, ?_, ?_, ?_, ?_, ?_, ?_, ?_, ?_, ?_, ?_, ?_, ?_, ?_, ?_, ?_, ?_, ?_, ?_, ?_, ?_, ?_⟩ <;>
  (unfold State.stale; first | (simp; done) | rfl |
    ((try dsimp only); (repeat' split) <;> first | (simp; done) | rfl | (simp_all; done)))

@[simp] theorem State.staleReaders_frame (s : State) (k : Kind) :
    (s.staleReaders k).pending = s.pending ∧ (s.staleReaders k).runState = s.runState ∧
    (s.staleReaders k).settings = s.settings ∧ (s.staleReaders k).bookCopy = s.bookCopy ∧
    (s.staleReaders k).book = s.book ∧
    (s.staleReaders k).linePin = s.linePin ∧ (s.staleReaders k).mem = s.mem ∧ (s.staleReaders k).chains = s.chains ∧
    (s.staleReaders k).holds = s.holds ∧ (s.staleReaders k).capLoad = s.capLoad ∧
    (s.staleReaders k).blinkOn = s.blinkOn ∧ (s.staleReaders k).blinkRunning = s.blinkRunning ∧
    (s.staleReaders k).streams = s.streams ∧ (s.staleReaders k).link = s.link ∧
    (s.staleReaders k).monitor = s.monitor ∧ (s.staleReaders k).takeover = s.takeover ∧
    (s.staleReaders k).camera = s.camera ∧ (s.staleReaders k).status = s.status ∧
    (s.staleReaders k).freeIx = s.freeIx ∧ (s.staleReaders k).regs.run = s.regs.run ∧
    (s.staleReaders k).regs.standby = s.regs.standby ∧ (s.staleReaders k).regs.freeze = s.regs.freeze := by
  cases k <;> simp [State.staleReaders]

@[simp] theorem State.writePageWord_frame (s : State) (o v : Nat) :
    (s.writePageWord o v).pending = s.pending ∧ (s.writePageWord o v).runState = s.runState ∧
    (s.writePageWord o v).settings = s.settings ∧ (s.writePageWord o v).bookCopy = s.bookCopy ∧
    (s.writePageWord o v).book = s.book ∧
    (s.writePageWord o v).linePin = s.linePin ∧ (s.writePageWord o v).chains = s.chains ∧
    (s.writePageWord o v).holds = s.holds ∧ (s.writePageWord o v).screens = s.screens ∧
    (s.writePageWord o v).capLoad = s.capLoad ∧ (s.writePageWord o v).blinkOn = s.blinkOn ∧
    (s.writePageWord o v).blinkRunning = s.blinkRunning ∧ (s.writePageWord o v).streams = s.streams ∧
    (s.writePageWord o v).link = s.link ∧ (s.writePageWord o v).vehicle = s.vehicle ∧
    (s.writePageWord o v).monitor = s.monitor ∧ (s.writePageWord o v).takeover = s.takeover ∧
    (s.writePageWord o v).camera = s.camera ∧ (s.writePageWord o v).guide = s.guide ∧
    (s.writePageWord o v).chime = s.chime ∧ (s.writePageWord o v).status = s.status ∧
    (s.writePageWord o v).freeIx = s.freeIx ∧ (s.writePageWord o v).regs.run = s.regs.run ∧
    (s.writePageWord o v).regs.standby = s.regs.standby ∧ (s.writePageWord o v).regs.freeze = s.regs.freeze := by
  refine ⟨?_, ?_, ?_, ?_, ?_, ?_, ?_, ?_, ?_, ?_, ?_, ?_, ?_, ?_, ?_, ?_, ?_, ?_, ?_, ?_, ?_, ?_, ?_, ?_, ?_⟩ <;>
  (unfold State.writePageWord; first | (simp; done) | rfl |
    ((try dsimp only); (repeat' split) <;> first | (simp; done) | rfl | (simp_all; done)))

@[simp] theorem State.beginUpdate_frame (s : State) :
    s.beginUpdate.pending = s.pending ∧ s.beginUpdate.runState = s.runState ∧ s.beginUpdate.settings = s.settings ∧
    s.beginUpdate.bookCopy = s.bookCopy ∧
    s.beginUpdate.book = s.book ∧ s.beginUpdate.linePin = s.linePin ∧ s.beginUpdate.chains = s.chains ∧
    s.beginUpdate.holds = s.holds ∧ s.beginUpdate.screens = s.screens ∧ s.beginUpdate.capLoad = s.capLoad ∧
    s.beginUpdate.blinkOn = s.blinkOn ∧ s.beginUpdate.blinkRunning = s.blinkRunning ∧
    s.beginUpdate.streams = s.streams ∧ s.beginUpdate.link = s.link ∧ s.beginUpdate.vehicle = s.vehicle ∧
    s.beginUpdate.monitor = s.monitor ∧ s.beginUpdate.takeover = s.takeover ∧ s.beginUpdate.camera = s.camera ∧
    s.beginUpdate.guide = s.guide ∧ s.beginUpdate.chime = s.chime ∧ s.beginUpdate.freeIx = s.freeIx ∧
    s.beginUpdate.regs.run = s.regs.run ∧ s.beginUpdate.regs.standby = s.regs.standby ∧
    s.beginUpdate.regs.freeze = s.regs.freeze := by
  refine ⟨?_, ?_, ?_, ?_, ?_, ?_, ?_, ?_, ?_, ?_, ?_, ?_, ?_, ?_, ?_, ?_, ?_, ?_, ?_, ?_, ?_, ?_, ?_, ?_⟩ <;>
  (unfold State.beginUpdate; first | (simp; done) | rfl |
    ((try dsimp only); (repeat' split) <;> first | (simp; done) | rfl | (simp_all; done)))

@[simp] theorem State.occasion_frame (s : State) :
    s.occasion.pending = s.pending ∧ s.occasion.runState = s.runState ∧ s.occasion.settings = s.settings ∧
    s.occasion.bookCopy = s.bookCopy ∧
    s.occasion.book = s.book ∧ s.occasion.linePin = s.linePin ∧ s.occasion.chains = s.chains ∧
    s.occasion.holds = s.holds ∧ s.occasion.screens = s.screens ∧ s.occasion.capLoad = s.capLoad ∧
    s.occasion.blinkOn = s.blinkOn ∧ s.occasion.blinkRunning = s.blinkRunning ∧ s.occasion.streams = s.streams ∧
    s.occasion.link = s.link ∧ s.occasion.vehicle = s.vehicle ∧ s.occasion.monitor = s.monitor ∧
    s.occasion.takeover = s.takeover ∧ s.occasion.camera = s.camera ∧ s.occasion.guide = s.guide ∧
    s.occasion.chime = s.chime ∧ s.occasion.freeIx = s.freeIx ∧ s.occasion.regs.run = s.regs.run ∧
    s.occasion.regs.standby = s.regs.standby ∧ s.occasion.regs.freeze = s.regs.freeze := by
  refine ⟨?_, ?_, ?_, ?_, ?_, ?_, ?_, ?_, ?_, ?_, ?_, ?_, ?_, ?_, ?_, ?_, ?_, ?_, ?_, ?_, ?_, ?_, ?_, ?_⟩ <;>
  (unfold State.occasion; first | (simp; done) | rfl |
    ((try dsimp only); (repeat' split) <;> first | (simp; done) | rfl | (simp_all; done)))

@[simp] theorem State.drainWord_frame (s : State) :
    s.drainWord.pending = s.pending ∧ s.drainWord.runState = s.runState ∧ s.drainWord.settings = s.settings ∧
    s.drainWord.bookCopy = s.bookCopy ∧
    s.drainWord.book = s.book ∧ s.drainWord.linePin = s.linePin ∧ s.drainWord.chains = s.chains ∧
    s.drainWord.holds = s.holds ∧ s.drainWord.screens = s.screens ∧ s.drainWord.capLoad = s.capLoad ∧
    s.drainWord.blinkOn = s.blinkOn ∧ s.drainWord.blinkRunning = s.blinkRunning ∧ s.drainWord.streams = s.streams ∧
    s.drainWord.link = s.link ∧ s.drainWord.vehicle = s.vehicle ∧ s.drainWord.monitor = s.monitor ∧
    s.drainWord.takeover = s.takeover ∧ s.drainWord.camera = s.camera ∧ s.drainWord.guide = s.guide ∧
    s.drainWord.chime = s.chime ∧ s.drainWord.freeIx = s.freeIx ∧ s.drainWord.regs.run = s.regs.run ∧
    s.drainWord.regs.standby = s.regs.standby ∧ s.drainWord.regs.freeze = s.regs.freeze := by
  refine ⟨?_, ?_, ?_, ?_, ?_, ?_, ?_, ?_, ?_, ?_, ?_, ?_, ?_, ?_, ?_, ?_, ?_, ?_, ?_, ?_, ?_, ?_, ?_, ?_⟩ <;>
  (unfold State.drainWord; first | (simp; done) | rfl |
    ((try dsimp only); (repeat' split) <;> first | (simp; done) | rfl | (simp_all; done)))

@[simp] theorem State.drainWords_frame (s : State) (n : Nat) :
    (s.drainWords n).pending = s.pending ∧ (s.drainWords n).runState = s.runState ∧
    (s.drainWords n).settings = s.settings ∧ (s.drainWords n).bookCopy = s.bookCopy ∧ (s.drainWords n).book = s.book ∧
    (s.drainWords n).linePin = s.linePin ∧
    (s.drainWords n).chains = s.chains ∧ (s.drainWords n).holds = s.holds ∧ (s.drainWords n).screens = s.screens ∧
    (s.drainWords n).capLoad = s.capLoad ∧ (s.drainWords n).blinkOn = s.blinkOn ∧
    (s.drainWords n).blinkRunning = s.blinkRunning ∧ (s.drainWords n).streams = s.streams ∧
    (s.drainWords n).link = s.link ∧ (s.drainWords n).vehicle = s.vehicle ∧ (s.drainWords n).monitor = s.monitor ∧
    (s.drainWords n).takeover = s.takeover ∧ (s.drainWords n).camera = s.camera ∧ (s.drainWords n).guide = s.guide ∧
    (s.drainWords n).chime = s.chime ∧ (s.drainWords n).freeIx = s.freeIx ∧ (s.drainWords n).regs.run = s.regs.run ∧
    (s.drainWords n).regs.standby = s.regs.standby ∧ (s.drainWords n).regs.freeze = s.regs.freeze := by
  induction n generalizing s with
  | zero => exact ⟨rfl, rfl, rfl, rfl, rfl, rfl, rfl, rfl, rfl, rfl, rfl, rfl, rfl, rfl, rfl, rfl, rfl, rfl, rfl, rfl, rfl, rfl, rfl, rfl⟩
  | succ n ih => have := ih s.drainWord; simpa [State.drainWords] using this

@[simp] theorem State.completeUpdate_frame (s : State) :
    s.completeUpdate.pending = s.pending ∧ s.completeUpdate.runState = s.runState ∧
    s.completeUpdate.settings = s.settings ∧ s.completeUpdate.bookCopy = s.bookCopy ∧ s.completeUpdate.book = s.book ∧
    s.completeUpdate.linePin = s.linePin ∧
    s.completeUpdate.chains = s.chains ∧ s.completeUpdate.holds = s.holds ∧ s.completeUpdate.screens = s.screens ∧
    s.completeUpdate.capLoad = s.capLoad ∧ s.completeUpdate.blinkOn = s.blinkOn ∧
    s.completeUpdate.blinkRunning = s.blinkRunning ∧ s.completeUpdate.streams = s.streams ∧
    s.completeUpdate.link = s.link ∧ s.completeUpdate.vehicle = s.vehicle ∧ s.completeUpdate.monitor = s.monitor ∧
    s.completeUpdate.takeover = s.takeover ∧ s.completeUpdate.camera = s.camera ∧ s.completeUpdate.guide = s.guide ∧
    s.completeUpdate.chime = s.chime ∧ s.completeUpdate.freeIx = s.freeIx ∧ s.completeUpdate.regs.run = s.regs.run ∧
    s.completeUpdate.regs.standby = s.regs.standby ∧ s.completeUpdate.regs.freeze = s.regs.freeze := by
  refine ⟨?_, ?_, ?_, ?_, ?_, ?_, ?_, ?_, ?_, ?_, ?_, ?_, ?_, ?_, ?_, ?_, ?_, ?_, ?_, ?_, ?_, ?_, ?_, ?_⟩ <;>
  (unfold State.completeUpdate; first | (simp; done) | rfl |
    ((try dsimp only); (repeat' split) <;> first | (simp; done) | rfl | (simp_all; done)))

@[simp] theorem State.writeFreeze_frame (s : State) (v : Bool) :
    (s.writeFreeze v).pending = s.pending ∧ (s.writeFreeze v).runState = s.runState ∧
    (s.writeFreeze v).settings = s.settings ∧ (s.writeFreeze v).bookCopy = s.bookCopy ∧
    (s.writeFreeze v).book = s.book ∧
    (s.writeFreeze v).linePin = s.linePin ∧ (s.writeFreeze v).mem = s.mem ∧ (s.writeFreeze v).chains = s.chains ∧
    (s.writeFreeze v).holds = s.holds ∧ (s.writeFreeze v).screens = s.screens ∧
    (s.writeFreeze v).capLoad = s.capLoad ∧ (s.writeFreeze v).blinkOn = s.blinkOn ∧
    (s.writeFreeze v).blinkRunning = s.blinkRunning ∧ (s.writeFreeze v).streams = s.streams ∧
    (s.writeFreeze v).link = s.link ∧ (s.writeFreeze v).vehicle = s.vehicle ∧ (s.writeFreeze v).monitor = s.monitor ∧
    (s.writeFreeze v).takeover = s.takeover ∧ (s.writeFreeze v).camera = s.camera ∧
    (s.writeFreeze v).guide = s.guide ∧ (s.writeFreeze v).chime = s.chime ∧ (s.writeFreeze v).freeIx = s.freeIx ∧
    (s.writeFreeze v).regs.run = s.regs.run ∧ (s.writeFreeze v).regs.standby = s.regs.standby := by
  refine ⟨?_, ?_, ?_, ?_, ?_, ?_, ?_, ?_, ?_, ?_, ?_, ?_, ?_, ?_, ?_, ?_, ?_, ?_, ?_, ?_, ?_, ?_, ?_, ?_⟩ <;>
  (unfold State.writeFreeze; first | (simp; done) | rfl |
    ((try dsimp only); (repeat' split) <;> first | (simp; done) | rfl | (simp_all; done)))

@[simp] theorem State.enterStarting_frame (s : State) :
    s.enterStarting.pending = s.pending ∧ s.enterStarting.settings = s.settings ∧
    s.enterStarting.linePin = s.linePin ∧ s.enterStarting.mem = s.mem ∧ s.enterStarting.chains = s.chains ∧
    s.enterStarting.holds = s.holds ∧ s.enterStarting.screens = s.screens ∧ s.enterStarting.capLoad = s.capLoad ∧
    s.enterStarting.blinkOn = s.blinkOn ∧ s.enterStarting.blinkRunning = s.blinkRunning ∧
    s.enterStarting.streams = s.streams ∧ s.enterStarting.link = s.link ∧ s.enterStarting.vehicle = s.vehicle ∧
    s.enterStarting.monitor = s.monitor ∧ s.enterStarting.takeover = s.takeover ∧ s.enterStarting.camera = s.camera ∧
    s.enterStarting.guide = s.guide ∧ s.enterStarting.chime = s.chime ∧ s.enterStarting.status = s.status ∧
    s.enterStarting.freeIx = s.freeIx ∧ s.enterStarting.regs.standby = s.regs.standby ∧
    s.enterStarting.regs.freeze = s.regs.freeze := by
  refine ⟨?_, ?_, ?_, ?_, ?_, ?_, ?_, ?_, ?_, ?_, ?_, ?_, ?_, ?_, ?_, ?_, ?_, ?_, ?_, ?_, ?_, ?_⟩ <;>
  (unfold State.enterStarting; first | (simp; done) | rfl |
    ((try dsimp only); (repeat' split) <;> first | (simp; done) | rfl | (simp_all; done)))

@[simp] theorem State.enterStopping_frame (s : State) :
    s.enterStopping.pending = s.pending ∧ s.enterStopping.settings = s.settings ∧
    s.enterStopping.bookCopy = s.bookCopy ∧ s.enterStopping.book = s.book ∧
    s.enterStopping.linePin = s.linePin ∧ s.enterStopping.chains = s.chains ∧ s.enterStopping.streams = s.streams ∧
    s.enterStopping.guide = s.guide ∧ s.enterStopping.status = s.status ∧ s.enterStopping.freeIx = s.freeIx ∧
    s.enterStopping.regs.standby = s.regs.standby ∧ s.enterStopping.regs.freeze = s.regs.freeze := by
  refine ⟨?_, ?_, ?_, ?_, ?_, ?_, ?_, ?_, ?_, ?_, ?_, ?_⟩ <;>
  (unfold State.enterStopping; first | (simp; done) | rfl |
    ((try dsimp only); (repeat' split) <;> first | (simp; done) | rfl | (simp_all; done)))

@[simp] theorem State.writeRun_frame (s : State) (v : Bool) :
    (s.writeRun v).pending = s.pending ∧ (s.writeRun v).settings = s.settings ∧
    (s.writeRun v).linePin = s.linePin ∧
    (s.writeRun v).chains = s.chains ∧ (s.writeRun v).streams = s.streams ∧ (s.writeRun v).guide = s.guide ∧
    (s.writeRun v).status = s.status ∧ (s.writeRun v).freeIx = s.freeIx ∧
    (s.writeRun v).regs.standby = s.regs.standby ∧ (s.writeRun v).regs.freeze = s.regs.freeze := by
  refine ⟨?_, ?_, ?_, ?_, ?_, ?_, ?_, ?_, ?_, ?_⟩ <;>
  (unfold State.writeRun; first | (simp; done) | rfl |
    ((try dsimp only); (repeat' split) <;> first | (simp; done) | rfl | (simp_all; done)))

@[simp] theorem State.stopWrite_frame (s : State) (h : Hold) (o v : Nat) (b : Bool) :
    (s.stopWrite h o v b).pending = s.pending ∧ (s.stopWrite h o v b).runState = s.runState ∧
    (s.stopWrite h o v b).settings = s.settings ∧ (s.stopWrite h o v b).bookCopy = s.bookCopy ∧
    (s.stopWrite h o v b).book = s.book ∧
    (s.stopWrite h o v b).linePin = s.linePin ∧ (s.stopWrite h o v b).screens = s.screens ∧
    (s.stopWrite h o v b).capLoad = s.capLoad ∧ (s.stopWrite h o v b).blinkOn = s.blinkOn ∧
    (s.stopWrite h o v b).blinkRunning = s.blinkRunning ∧ (s.stopWrite h o v b).streams = s.streams ∧
    (s.stopWrite h o v b).link = s.link ∧ (s.stopWrite h o v b).vehicle = s.vehicle ∧
    (s.stopWrite h o v b).monitor = s.monitor ∧ (s.stopWrite h o v b).takeover = s.takeover ∧
    (s.stopWrite h o v b).camera = s.camera ∧ (s.stopWrite h o v b).guide = s.guide ∧
    (s.stopWrite h o v b).chime = s.chime ∧ (s.stopWrite h o v b).status = s.status ∧
    (s.stopWrite h o v b).regs.run = s.regs.run ∧ (s.stopWrite h o v b).regs.standby = s.regs.standby ∧
    (s.stopWrite h o v b).regs.freeze = s.regs.freeze := by
  refine ⟨?_, ?_, ?_, ?_, ?_, ?_, ?_, ?_, ?_, ?_, ?_, ?_, ?_, ?_, ?_, ?_, ?_, ?_, ?_, ?_, ?_, ?_⟩ <;>
  (unfold State.stopWrite; first | (simp; done) | rfl |
    ((try dsimp only); (repeat' split) <;> first | (simp; done) | rfl | (simp_all; done)))

@[simp] theorem State.stopEntry_frame (s : State) (e : LinkErrs) (h : Hold) :
    (State.stopEntry e s h).pending = s.pending ∧ (State.stopEntry e s h).runState = s.runState ∧
    (State.stopEntry e s h).settings = s.settings ∧ (State.stopEntry e s h).bookCopy = s.bookCopy ∧
    (State.stopEntry e s h).book = s.book ∧
    (State.stopEntry e s h).linePin = s.linePin ∧ (State.stopEntry e s h).screens = s.screens ∧
    (State.stopEntry e s h).capLoad = s.capLoad ∧ (State.stopEntry e s h).blinkOn = s.blinkOn ∧
    (State.stopEntry e s h).blinkRunning = s.blinkRunning ∧ (State.stopEntry e s h).streams = s.streams ∧
    (State.stopEntry e s h).link = s.link ∧ (State.stopEntry e s h).vehicle = s.vehicle ∧
    (State.stopEntry e s h).monitor = s.monitor ∧ (State.stopEntry e s h).takeover = s.takeover ∧
    (State.stopEntry e s h).camera = s.camera ∧ (State.stopEntry e s h).guide = s.guide ∧
    (State.stopEntry e s h).chime = s.chime ∧ (State.stopEntry e s h).status = s.status ∧
    (State.stopEntry e s h).regs.run = s.regs.run ∧ (State.stopEntry e s h).regs.standby = s.regs.standby ∧
    (State.stopEntry e s h).regs.freeze = s.regs.freeze := by
  refine ⟨?_, ?_, ?_, ?_, ?_, ?_, ?_, ?_, ?_, ?_, ?_, ?_, ?_, ?_, ?_, ?_, ?_, ?_, ?_, ?_, ?_, ?_⟩ <;>
  (unfold State.stopEntry; first | (simp; done) | rfl |
    ((try dsimp only); (repeat' split) <;> first | (simp; done) | rfl | (simp_all; done)))

@[simp] theorem State.stopHolds_frame (s : State) (e : LinkErrs) :
    (s.stopHolds e).pending = s.pending ∧ (s.stopHolds e).runState = s.runState ∧
    (s.stopHolds e).settings = s.settings ∧ (s.stopHolds e).bookCopy = s.bookCopy ∧ (s.stopHolds e).book = s.book ∧
    (s.stopHolds e).linePin = s.linePin ∧
    (s.stopHolds e).screens = s.screens ∧ (s.stopHolds e).capLoad = s.capLoad ∧ (s.stopHolds e).blinkOn = s.blinkOn ∧
    (s.stopHolds e).blinkRunning = s.blinkRunning ∧ (s.stopHolds e).streams = s.streams ∧
    (s.stopHolds e).link = s.link ∧ (s.stopHolds e).vehicle = s.vehicle ∧ (s.stopHolds e).monitor = s.monitor ∧
    (s.stopHolds e).takeover = s.takeover ∧ (s.stopHolds e).camera = s.camera ∧ (s.stopHolds e).guide = s.guide ∧
    (s.stopHolds e).chime = s.chime ∧ (s.stopHolds e).status = s.status ∧ (s.stopHolds e).regs.run = s.regs.run ∧
    (s.stopHolds e).regs.standby = s.regs.standby ∧ (s.stopHolds e).regs.freeze = s.regs.freeze := by
  have key : ∀ (l : List Hold) (s : State),    (l.foldl (State.stopEntry e) s).pending = s.pending ∧
    (l.foldl (State.stopEntry e) s).runState = s.runState ∧
        (l.foldl (State.stopEntry e) s).settings = s.settings ∧
    (l.foldl (State.stopEntry e) s).bookCopy = s.bookCopy ∧ (l.foldl (State.stopEntry e) s).book = s.book ∧
        (l.foldl (State.stopEntry e) s).linePin = s.linePin ∧ (l.foldl (State.stopEntry e) s).screens = s.screens ∧     (l.foldl (State.stopEntry e) s).capLoad = s.capLoad ∧ (l.foldl (State.stopEntry e) s).blinkOn = s.blinkOn ∧     (l.foldl (State.stopEntry e) s).blinkRunning = s.blinkRunning ∧     (l.foldl (State.stopEntry e) s).streams = s.streams ∧ (l.foldl (State.stopEntry e) s).link = s.link ∧     (l.foldl (State.stopEntry e) s).vehicle = s.vehicle ∧ (l.foldl (State.stopEntry e) s).monitor = s.monitor ∧     (l.foldl (State.stopEntry e) s).takeover = s.takeover ∧ (l.foldl (State.stopEntry e) s).camera = s.camera ∧     (l.foldl (State.stopEntry e) s).guide = s.guide ∧ (l.foldl (State.stopEntry e) s).chime = s.chime ∧     (l.foldl (State.stopEntry e) s).status = s.status ∧ (l.foldl (State.stopEntry e) s).regs.run = s.regs.run ∧     (l.foldl (State.stopEntry e) s).regs.standby = s.regs.standby ∧     (l.foldl (State.stopEntry e) s).regs.freeze = s.regs.freeze := by
    intro l
    induction l with
    | nil => intro s; exact ⟨rfl, rfl, rfl, rfl, rfl, rfl, rfl, rfl, rfl, rfl, rfl, rfl, rfl, rfl, rfl, rfl, rfl, rfl, rfl, rfl, rfl, rfl⟩
    | cons x t ih => intro s; have := ih (State.stopEntry e s x); simpa using this
  exact key _ s

@[simp] theorem State.stopBlocks_frame (s : State) :
    s.stopBlocks.pending = s.pending ∧ s.stopBlocks.runState = s.runState ∧ s.stopBlocks.settings = s.settings ∧
    s.stopBlocks.bookCopy = s.bookCopy ∧
    s.stopBlocks.book = s.book ∧ s.stopBlocks.linePin = s.linePin ∧ s.stopBlocks.mem = s.mem ∧
    s.stopBlocks.capLoad = s.capLoad ∧ s.stopBlocks.blinkOn = s.blinkOn ∧
    s.stopBlocks.blinkRunning = s.blinkRunning ∧ s.stopBlocks.link = s.link ∧ s.stopBlocks.vehicle = s.vehicle ∧
    s.stopBlocks.monitor = s.monitor ∧ s.stopBlocks.takeover = s.takeover ∧ s.stopBlocks.camera = s.camera ∧
    s.stopBlocks.guide = s.guide ∧ s.stopBlocks.chime = s.chime ∧ s.stopBlocks.status = s.status ∧
    s.stopBlocks.freeIx = s.freeIx ∧ s.stopBlocks.regs.run = s.regs.run ∧
    s.stopBlocks.regs.standby = s.regs.standby ∧ s.stopBlocks.regs.freeze = s.regs.freeze := by
  refine ⟨?_, ?_, ?_, ?_, ?_, ?_, ?_, ?_, ?_, ?_, ?_, ?_, ?_, ?_, ?_, ?_, ?_, ?_, ?_, ?_, ?_, ?_⟩ <;>
  (unfold State.stopBlocks; first | (simp; done) | rfl |
    ((try dsimp only); (repeat' split) <;> first | (simp; done) | rfl | (simp_all; done)))

@[simp] theorem State.finishUpdate_frame (s : State) (w : List Nat) :
    (s.finishUpdate w).pending = s.pending ∧ (s.finishUpdate w).runState = s.runState ∧
    (s.finishUpdate w).settings = s.settings ∧ (s.finishUpdate w).bookCopy = s.bookCopy ∧
    (s.finishUpdate w).book = s.book ∧ (s.finishUpdate w).linePin = s.linePin ∧ (s.finishUpdate w).chains = s.chains ∧
    (s.finishUpdate w).holds = s.holds ∧ (s.finishUpdate w).screens = s.screens ∧
    (s.finishUpdate w).capLoad = s.capLoad ∧ (s.finishUpdate w).blinkOn = s.blinkOn ∧
    (s.finishUpdate w).blinkRunning = s.blinkRunning ∧ (s.finishUpdate w).streams = s.streams ∧
    (s.finishUpdate w).link = s.link ∧ (s.finishUpdate w).vehicle = s.vehicle ∧
    (s.finishUpdate w).monitor = s.monitor ∧ (s.finishUpdate w).takeover = s.takeover ∧
    (s.finishUpdate w).camera = s.camera ∧ (s.finishUpdate w).guide = s.guide ∧ (s.finishUpdate w).chime = s.chime ∧
    (s.finishUpdate w).freeIx = s.freeIx ∧ (s.finishUpdate w).regs.run = s.regs.run ∧
    (s.finishUpdate w).regs.standby = s.regs.standby ∧ (s.finishUpdate w).regs.freeze = s.regs.freeze := by
  unfold State.finishUpdate
  split
  · exact ⟨rfl, rfl, rfl, rfl, rfl, rfl, rfl, rfl, rfl, rfl, rfl, rfl, rfl, rfl, rfl, rfl, rfl, rfl, rfl, rfl, rfl, rfl, rfl, rfl⟩
  · split
    · simp
    · split <;> simp

@[simp] theorem State.beginUpdateWith_frame (s : State) (w : List Nat) :
    (s.beginUpdateWith w).pending = s.pending ∧ (s.beginUpdateWith w).runState = s.runState ∧
    (s.beginUpdateWith w).settings = s.settings ∧ (s.beginUpdateWith w).bookCopy = s.bookCopy ∧
    (s.beginUpdateWith w).book = s.book ∧ (s.beginUpdateWith w).linePin = s.linePin ∧
    (s.beginUpdateWith w).chains = s.chains ∧ (s.beginUpdateWith w).holds = s.holds ∧
    (s.beginUpdateWith w).screens = s.screens ∧ (s.beginUpdateWith w).capLoad = s.capLoad ∧
    (s.beginUpdateWith w).blinkOn = s.blinkOn ∧ (s.beginUpdateWith w).blinkRunning = s.blinkRunning ∧
    (s.beginUpdateWith w).streams = s.streams ∧ (s.beginUpdateWith w).link = s.link ∧
    (s.beginUpdateWith w).vehicle = s.vehicle ∧ (s.beginUpdateWith w).monitor = s.monitor ∧
    (s.beginUpdateWith w).takeover = s.takeover ∧ (s.beginUpdateWith w).camera = s.camera ∧
    (s.beginUpdateWith w).guide = s.guide ∧ (s.beginUpdateWith w).chime = s.chime ∧
    (s.beginUpdateWith w).freeIx = s.freeIx ∧ (s.beginUpdateWith w).regs.run = s.regs.run ∧
    (s.beginUpdateWith w).regs.standby = s.regs.standby ∧ (s.beginUpdateWith w).regs.freeze = s.regs.freeze := by
  unfold State.beginUpdateWith
  split
  · exact ⟨rfl, rfl, rfl, rfl, rfl, rfl, rfl, rfl, rfl, rfl, rfl, rfl, rfl, rfl, rfl, rfl, rfl, rfl, rfl, rfl, rfl, rfl, rfl, rfl⟩
  · simp

@[simp] theorem State.lastUpdate_frame (s : State) (e : LinkErrs) :
    (s.lastUpdate e).pending = s.pending ∧ (s.lastUpdate e).runState = s.runState ∧
    (s.lastUpdate e).settings = s.settings ∧ (s.lastUpdate e).bookCopy = s.bookCopy ∧
    (s.lastUpdate e).book = s.book ∧ (s.lastUpdate e).linePin = s.linePin ∧ (s.lastUpdate e).chains = s.chains ∧
    (s.lastUpdate e).holds = s.holds ∧ (s.lastUpdate e).screens = s.screens ∧ (s.lastUpdate e).capLoad = s.capLoad ∧
    (s.lastUpdate e).blinkOn = s.blinkOn ∧ (s.lastUpdate e).blinkRunning = s.blinkRunning ∧
    (s.lastUpdate e).streams = s.streams ∧ (s.lastUpdate e).link = s.link ∧ (s.lastUpdate e).vehicle = s.vehicle ∧
    (s.lastUpdate e).monitor = s.monitor ∧ (s.lastUpdate e).takeover = s.takeover ∧ (s.lastUpdate e).camera = s.camera ∧
    (s.lastUpdate e).guide = s.guide ∧ (s.lastUpdate e).chime = s.chime ∧ (s.lastUpdate e).freeIx = s.freeIx ∧
    (s.lastUpdate e).regs.run = s.regs.run ∧ (s.lastUpdate e).regs.standby = s.regs.standby ∧
    (s.lastUpdate e).regs.freeze = s.regs.freeze := by
  refine ⟨?_, ?_, ?_, ?_, ?_, ?_, ?_, ?_, ?_, ?_, ?_, ?_, ?_, ?_, ?_, ?_, ?_, ?_, ?_, ?_, ?_, ?_, ?_, ?_⟩ <;>
  (unfold State.lastUpdate; first | (simp; done) | rfl |
    ((try dsimp only); (repeat' split) <;> first | (simp; done) | rfl | (simp_all; done)))

@[simp] theorem State.enterOff_frame (s : State) :
    s.enterOff.pending = s.pending ∧ s.enterOff.settings = s.settings ∧ s.enterOff.bookCopy = s.bookCopy ∧
    s.enterOff.book = s.book ∧
    s.enterOff.linePin = s.linePin ∧ s.enterOff.mem = s.mem ∧ s.enterOff.chains = s.chains ∧
    s.enterOff.holds = s.holds ∧ s.enterOff.screens = s.screens ∧ s.enterOff.capLoad = s.capLoad ∧
    s.enterOff.blinkOn = s.blinkOn ∧ s.enterOff.blinkRunning = s.blinkRunning ∧ s.enterOff.streams = s.streams ∧
    s.enterOff.link = s.link ∧ s.enterOff.vehicle = s.vehicle ∧ s.enterOff.monitor = s.monitor ∧
    s.enterOff.takeover = s.takeover ∧ s.enterOff.camera = s.camera ∧ s.enterOff.guide = s.guide ∧
    s.enterOff.chime = s.chime ∧ s.enterOff.freeIx = s.freeIx ∧ s.enterOff.regs.run = s.regs.run ∧
    s.enterOff.regs.standby = s.regs.standby ∧ s.enterOff.regs.freeze = s.regs.freeze := by
  refine ⟨?_, ?_, ?_, ?_, ?_, ?_, ?_, ?_, ?_, ?_, ?_, ?_, ?_, ?_, ?_, ?_, ?_, ?_, ?_, ?_, ?_, ?_, ?_, ?_⟩ <;>
  (unfold State.enterOff; first | (simp; done) | rfl |
    ((try dsimp only); (repeat' split) <;> first | (simp; done) | rfl | (simp_all; done)))

@[simp] theorem State.idle_frame (s : State) :
    s.idle.pending = s.pending ∧ s.idle.runState = s.runState ∧ s.idle.settings = s.settings ∧
    s.idle.bookCopy = s.bookCopy ∧ s.idle.book = s.book ∧
    s.idle.linePin = s.linePin ∧ s.idle.chains = s.chains ∧ s.idle.holds = s.holds ∧ s.idle.capLoad = s.capLoad ∧
    s.idle.blinkOn = s.blinkOn ∧ s.idle.blinkRunning = s.blinkRunning ∧ s.idle.streams = s.streams ∧
    s.idle.link = s.link ∧ s.idle.vehicle = s.vehicle ∧ s.idle.monitor = s.monitor ∧ s.idle.takeover = s.takeover ∧
    s.idle.camera = s.camera ∧ s.idle.guide = s.guide ∧ s.idle.chime = s.chime ∧ s.idle.freeIx = s.freeIx ∧
    s.idle.regs.run = s.regs.run ∧ s.idle.regs.standby = s.regs.standby ∧ s.idle.regs.freeze = s.regs.freeze := by
  refine ⟨?_, ?_, ?_, ?_, ?_, ?_, ?_, ?_, ?_, ?_, ?_, ?_, ?_, ?_, ?_, ?_, ?_, ?_, ?_, ?_, ?_, ?_, ?_⟩ <;>
  (unfold State.idle; first | (simp; done) | rfl |
    ((try dsimp only); (repeat' split) <;> first | (simp; done) | rfl | (simp_all; done)))

end Sys2Proof.Machine
end

