-- ==== Sys2Proof/Laws/Memory.lean ====
section
/-! SUPPORT. Host memory: what a write changes, and that every write keeps the canonical form. -/

namespace Sys2Proof.Machine

/-! ## Reading one byte -/

@[simp] theorem Mem.get_nil (a : Nat) : Mem.get [] a = 0 := rfl

theorem Mem.get_cons (k : Nat) (v : Byte) (t : Mem) (a : Nat) :
    Mem.get ((k, v) :: t) a = if k = a then v else Mem.get t a := rfl

theorem Mem.get_erase (m : Mem) (a x : Nat) : Mem.get (Mem.erase m a) x = if x = a then 0 else Mem.get m x := by
  induction m with
  | nil => simp [Mem.erase]
  | cons c t ih =>
    obtain ⟨k, v⟩ := c
    unfold Mem.erase at ih ⊢
    by_cases hk : k = a
    · subst hk
      simp only [List.filter_cons, bne_self_eq_false, Bool.false_eq_true, if_false, ih, Mem.get_cons]
      by_cases hx : x = k
      · simp [hx]
      · simp [hx, Ne.symm hx]
    · have : (k != a) = true := by simpa using hk
      simp only [List.filter_cons, this, if_true, Mem.get_cons, ih]
      by_cases hx : k = x
      · subst hx; simp [hk]
      · simp [hx]

theorem Mem.get_insert (m : Mem) (a : Nat) (b : Byte) (x : Nat) (h : ∀ c ∈ m, c.1 ≠ a) :
    Mem.get (Mem.insert m a b) x = if x = a then b else Mem.get m x := by
  induction m with
  | nil =>
    simp only [Mem.insert, Mem.get_cons, Mem.get_nil]
    by_cases hx : x = a
    · simp [hx]
    · simp [hx, Ne.symm hx]
  | cons c t ih =>
    obtain ⟨k, v⟩ := c
    have hk : k ≠ a := h (k, v) (by simp)
    have ht := ih (fun c hc => h c (by simp [hc]))
    simp only [Mem.insert]
    split
    · simp only [Mem.get_cons]
      by_cases hx : x = a
      · simp [hx]
      · simp [hx, Ne.symm hx]
    · simp only [Mem.get_cons, ht]
      by_cases hx : k = x
      · subst hx; simp [hk]
      · simp [hx]

theorem Mem.mem_erase {m : Mem} {a : Nat} {c : Host.Cell} (h : c ∈ Mem.erase m a) : c ∈ m ∧ c.1 ≠ a := by
  simpa [Mem.erase] using h

/-- What a byte write does to every byte. -/
theorem Mem.get_set (m : Mem) (a : Nat) (b : Byte) (x : Nat) :
    Mem.get (Mem.set m a b) x = if x = a ∧ a < 2 ^ 64 then b else Mem.get m x := by
  unfold Mem.set
  by_cases ha : 2 ^ 64 ≤ a
  · rw [if_pos ha, if_neg (by omega)]
  · rw [if_neg ha]
    have ha' : a < 2 ^ 64 := by omega
    by_cases hb : b = 0
    · rw [if_pos hb, Mem.get_erase]
      by_cases hx : x = a
      · rw [if_pos hx, if_pos ⟨hx, ha'⟩, hb]
      · rw [if_neg hx, if_neg (fun h => hx h.1)]
    · rw [if_neg hb, Mem.get_insert _ _ _ _ (fun c hc => (Mem.mem_erase hc).2), Mem.get_erase]
      by_cases hx : x = a
      · rw [if_pos hx, if_pos ⟨hx, ha'⟩]
      · rw [if_neg hx, if_neg hx, if_neg (fun h => hx h.1)]

theorem Mem.get_set_ne (m : Mem) {a x : Nat} (b : Byte) (h : x ≠ a) : Mem.get (Mem.set m a b) x = Mem.get m x := by
  rw [Mem.get_set, if_neg (by simp [h])]

theorem Mem.get_set_same (m : Mem) {a : Nat} (b : Byte) (h : a < 2 ^ 64) : Mem.get (Mem.set m a b) a = b := by
  rw [Mem.get_set, if_pos ⟨rfl, h⟩]

/-- A little-endian write leaves every byte outside its range. -/
theorem Mem.get_writeLE_out (m : Mem) (a n v x : Nat) (h : x < a ∨ a + n ≤ x) :
    Mem.get (Mem.writeLE m a n v) x = Mem.get m x := by
  induction n generalizing a v with
  | zero => rfl
  | succ n ih => rw [Mem.writeLE, Mem.get_set_ne _ _ (by omega), ih _ _ (by omega)]

/-- A little-endian write writes byte `k` of the value at offset `k`. -/
theorem Mem.get_writeLE_in (m : Mem) (a n v k : Nat) (hk : k < n) (ha : a + n ≤ 2 ^ 64) :
    Mem.get (Mem.writeLE m a n v) (a + k) = BitVec.ofNat 8 (v / 256 ^ k) := by
  induction n generalizing a v k with
  | zero => omega
  | succ n ih =>
    rw [Mem.writeLE]
    cases k with
    | zero =>
      show Mem.get (Mem.set _ a _) a = _
      rw [Mem.get_set_same _ _ (by omega), Nat.pow_zero, Nat.div_one]
    | succ k =>
      rw [Mem.get_set_ne _ _ (by omega), show a + (k + 1) = a + 1 + k by omega, ih _ _ _ (by omega) (by omega)]
      rw [Nat.div_div_eq_div_mul, show 256 * 256 ^ k = 256 ^ (k + 1) by rw [Nat.pow_succ, Nat.mul_comm]]

/-- What is read back after a little-endian write: the value, cut to the width. -/
theorem Mem.readLE_writeLE (m : Mem) (a n v : Nat) (ha : a + n ≤ 2 ^ 64) :
    Mem.readLE (Mem.writeLE m a n v) a n = v % 256 ^ n := by
  have key : ∀ (k : Nat) (b : Nat), b + k ≤ n → Mem.readLE (Mem.writeLE m a n v) (a + b) k = v / 256 ^ b % 256 ^ k := by
    intro k
    induction k with
    | zero => intro b _; simp [Mem.readLE, Nat.mod_one]
    | succ k ih =>
      intro b hb
      have h := ih (b + 1) (by omega)
      rw [Mem.readLE, Mem.get_writeLE_in _ _ _ _ _ (by omega) ha, show a + b + 1 = a + (b + 1) by omega, h]
      rw [BitVec.toNat_ofNat, show (256 : Nat) ^ (k + 1) = 256 * 256 ^ k by rw [Nat.pow_succ, Nat.mul_comm],
        Nat.mod_mul, Nat.div_div_eq_div_mul, Nat.pow_succ]
      rfl
  simpa using key n 0 (by omega)

/-! ## The canonical form -/

theorem Mem.wf_cons (k : Nat) (v : Byte) (t : Mem) :
    Mem.wf ((k, v) :: t) = true ↔ k < 2 ^ 64 ∧ v ≠ 0 ∧ (∀ c ∈ t, k < c.1) ∧ Mem.wf t = true := by
  simp only [Mem.wf, Bool.and_eq_true, decide_eq_true_eq, bne_iff_ne, ne_eq, List.all_eq_true, and_assoc]

theorem Mem.wf_erase (m : Mem) (a : Nat) (h : Mem.wf m = true) : Mem.wf (Mem.erase m a) = true := by
  induction m with
  | nil => rfl
  | cons c t ih =>
    obtain ⟨k, v⟩ := c
    obtain ⟨h1, h2, h3, h4⟩ := (Mem.wf_cons k v t).1 h
    have ht := ih h4
    unfold Mem.erase at ht ⊢
    rw [List.filter_cons]
    split
    · exact (Mem.wf_cons _ _ _).2 ⟨h1, h2, fun c hc => h3 c (List.mem_filter.1 hc).1, ht⟩
    · exact ht

theorem Mem.mem_insert {m : Mem} {a : Nat} {b : Byte} {c : Host.Cell} (h : c ∈ Mem.insert m a b) :
    c = (a, b) ∨ c ∈ m := by
  induction m with
  | nil => simpa [Mem.insert] using h
  | cons d t ih =>
    simp only [Mem.insert] at h
    split at h
    · simpa using h
    · rcases List.mem_cons.1 h with h | h
      · exact .inr (by simp [h])
      · rcases ih h with h | h
        · exact .inl h
        · exact .inr (by simp [h])

theorem Mem.wf_insert (m : Mem) (a : Nat) (b : Byte) (h : Mem.wf m = true) (ha : a < 2 ^ 64) (hb : b ≠ 0)
    (hne : ∀ c ∈ m, c.1 ≠ a) : Mem.wf (Mem.insert m a b) = true := by
  induction m with
  | nil => exact (Mem.wf_cons _ _ _).2 ⟨ha, hb, by simp, rfl⟩
  | cons c t ih =>
    obtain ⟨k, v⟩ := c
    obtain ⟨h1, h2, h3, h4⟩ := (Mem.wf_cons k v t).1 h
    simp only [Mem.insert]
    split
    · rename_i hlt
      refine (Mem.wf_cons _ _ _).2 ⟨ha, hb, ?_, h⟩
      intro c hc
      rcases List.mem_cons.1 hc with hc | hc
      · rw [hc]; exact hlt
      · have := h3 c hc; omega
    · rename_i hge
      refine (Mem.wf_cons _ _ _).2 ⟨h1, h2, ?_, ih h4 (fun c hc => hne c (by simp [hc]))⟩
      intro c hc
      rcases Mem.mem_insert hc with hc | hc
      · subst hc
        have := hne (k, v) (by simp)
        simp only [ne_eq] at this
        show k < a
        omega
      · exact h3 c hc

/-- A byte write keeps the canonical form. -/
theorem Mem.wf_set (m : Mem) (a : Nat) (b : Byte) (h : Mem.wf m = true) : Mem.wf (Mem.set m a b) = true := by
  unfold Mem.set
  split
  · exact h
  · split
    · exact Mem.wf_erase m a h
    · rename_i ha hb
      exact Mem.wf_insert _ _ _ (Mem.wf_erase m a h) (by omega) hb (fun c hc => (Mem.mem_erase hc).2)

/-- A little-endian write keeps the canonical form. -/
theorem Mem.wf_writeLE (m : Mem) (a n v : Nat) (h : Mem.wf m = true) : Mem.wf (Mem.writeLE m a n v) = true := by
  induction n generalizing a v with
  | zero => exact h
  | succ n ih => exact Mem.wf_set _ _ _ (ih _ _)

end Sys2Proof.Machine
end

