-- ==== Sys2Proof/Laws/Keeps.lean ====
section
/-! SUPPORT. What every shared operation keeps: the canonical form of memory, the bytes outside a set, the notices
raised so far, and everything fixed at a start. One lemma for each operation. -/

namespace Sys2Proof.Machine

/-! ## The relation -/

/-- From `a` to `s` no byte outside `P` has changed, memory has kept its canonical form, no notice has been cleared and
nothing fixed has changed; and every entry `s` still holds has its header in `P`. -/
structure Keeps (P : Nat → Prop) (a s : State) : Prop where
  held : ∀ h ∈ s.holds, Header P h.addr
  mem : ∀ x, ¬ P x → Mem.get s.mem x = Mem.get a.mem x
  wf : Mem.wf a.mem = true → Mem.wf s.mem = true
  notice : a.regs.notice &&& s.regs.notice = a.regs.notice
  fixed : s.fixed = a.fixed

section
variable {P : Nat → Prop} {a s : State}

theorem Keeps.refl (h : ∀ k ∈ a.holds, Header P k.addr) : Keeps P a a :=
  ⟨h, fun _ _ => rfl, fun h => h, by simp, rfl⟩

theorem keeps_ite {c : Prop} [Decidable c] {x y : State} (hx : Keeps P a x) (hy : Keeps P a y) :
    Keeps P a (if c then x else y) := by
  split
  · exact hx
  · exact hy

/-- A word written in `P`. -/
theorem Keeps.write (h : Keeps P a s) (b n v : Nat) (hP : ∀ x, b ≤ x → x < b + n → P x) :
    Keeps P a { s with mem := Mem.writeLE s.mem b n v } := by
  refine ⟨h.held, ?_, fun hw => Mem.wf_writeLE _ _ _ _ (h.wf hw), h.notice, h.fixed⟩
  intro x hx
  have : x < b ∨ b + n ≤ x := by
    rcases Nat.lt_or_ge x b with h1 | h1
    · exact .inl h1
    · rcases Nat.lt_or_ge x (b + n) with h2 | h2
      · exact absurd (hP x h1 h2) hx
      · exact .inr h2
  show Mem.get (Mem.writeLE s.mem b n v) x = _
  rw [Mem.get_writeLE_out _ _ _ _ _ this, h.mem x hx]

/-- The status word of an entry whose header lies in `P`. -/
theorem Keeps.write0 (h : Keeps P a s) {b : Nat} (v : Nat) (hP : Header P b) :
    Keeps P a { s with mem := Mem.writeLE s.mem b 4 v } :=
  h.write b 4 v (fun x h1 h2 => hP x h1 (by omega))

/-- The report word of an entry whose header lies in `P`. -/
theorem Keeps.write4 (h : Keeps P a s) {b : Nat} (v : Nat) (hP : Header P b) :
    Keeps P a { s with mem := Mem.writeLE s.mem (b + 4) 4 v } :=
  h.write (b + 4) 4 v (fun x h1 h2 => hP x (by omega) (by omega))

theorem Keeps.freeIx (h : Keeps P a s) (n : Nat) : Keeps P a { s with freeIx := n } :=
  ⟨h.held, h.mem, h.wf, h.notice, h.fixed⟩

/-! ## Updates that write no memory -/

theorem keeps_modScreen (h : Keeps P a s) (i : ScreenId) (f : Screen → Screen) : Keeps P a (s.modScreen i f) :=
  ⟨h.held, h.mem, h.wf, h.notice, h.fixed⟩

theorem keeps_modStream (h : Keeps P a s) (x : StreamId) (f : Stream → Stream) : Keeps P a (s.modStream x f) :=
  ⟨h.held, h.mem, h.wf, h.notice, h.fixed⟩

theorem keeps_modCamera (h : Keeps P a s) (f : Camera → Camera) : Keeps P a (s.modCamera f) :=
  ⟨h.held, h.mem, h.wf, h.notice, h.fixed⟩

theorem keeps_modTakeover (h : Keeps P a s) (f : Takeover → Takeover) : Keeps P a (s.modTakeover f) :=
  ⟨h.held, h.mem, h.wf, h.notice, h.fixed⟩

theorem keeps_modLink (h : Keeps P a s) (f : Receiver → Receiver) : Keeps P a (s.modLink f) :=
  ⟨h.held, h.mem, h.wf, h.notice, h.fixed⟩

theorem keeps_modVehicle (h : Keeps P a s) (f : Vehicle → Vehicle) : Keeps P a (s.modVehicle f) :=
  ⟨h.held, h.mem, h.wf, h.notice, h.fixed⟩

theorem keeps_modStatus (h : Keeps P a s) (f : StatusWriter → StatusWriter) : Keeps P a (s.modStatus f) :=
  ⟨h.held, h.mem, h.wf, h.notice, h.fixed⟩

/-- A change of the chime engine that keeps the library. -/
theorem keeps_modChime (h : Keeps P a s) (f : Chime → Chime) (hf : (f s.chime).library = s.chime.library) :
    Keeps P a (s.modChime f) := by
  refine ⟨h.held, h.mem, h.wf, h.notice, ?_⟩
  rw [← h.fixed]
  simp only [State.fixed, State.modChime, hf]

/-- A change of the guide engine that keeps its table and its state. -/
theorem keeps_guide (h : Keeps P a s) (g : Guide) (h1 : g.table = s.guide.table) (h2 : g.state = s.guide.state)
    (h3 : g.reason = s.guide.reason) : Keeps P a { s with guide := g } := by
  refine ⟨h.held, h.mem, h.wf, h.notice, ?_⟩
  rw [← h.fixed]
  simp only [State.fixed, h1, h2, h3]

theorem keeps_setChain (h : Keeps P a s) (c : ChainId) (v : Chain) : Keeps P a (s.setChain c v) := by
  cases c <;> exact ⟨h.held, h.mem, h.wf, h.notice, h.fixed⟩

theorem keeps_raise (h : Keeps P a s) (n : Notice) : Keeps P a (s.raise n) := by
  refine ⟨h.held, h.mem, h.wf, ?_, h.fixed⟩
  have := h.notice
  simp only [State.raise]
  rw [BitVec.and_or_distrib_left, this]
  ext i hi
  simp only [BitVec.getElem_or, BitVec.getElem_and]
  cases a.regs.notice[i] <;> simp

theorem keeps_raiseIf (h : Keeps P a s) (b : Bool) (n : Notice) : Keeps P a (s.raiseIf b n) := by
  cases b
  · exact h
  · exact keeps_raise h n

/-! ## Chains and hold records -/

theorem keeps_faultChain (h : Keeps P a s) (c : ChainId) (k : FaultCause) (n : Nat) :
    Keeps P a (s.faultChain c k n) := by
  unfold State.faultChain
  simp only
  split
  · exact keeps_setChain h _ _
  · exact keeps_raise (keeps_setChain h _ _) _

theorem keeps_rootReadError (h : Keeps P a s) (c : ChainId) : Keeps P a (s.rootReadError c) :=
  keeps_raise (keeps_setChain h _ _) _

theorem keeps_statusWriteFailed (h : Keeps P a s) (c : ChainId) (n : Nat) : Keeps P a (s.statusWriteFailed c n) :=
  keeps_faultChain (keeps_setChain h _ _) _ _ _

theorem keeps_putHold (h : Keeps P a s) (k : Hold) (hk : Header P k.addr) : Keeps P a (s.putHold k) := by
  refine ⟨?_, h.mem, h.wf, h.notice, h.fixed⟩
  intro x hx
  simp only [State.putHold] at hx
  split at hx
  · obtain ⟨y, hy, rfl⟩ := List.mem_map.1 hx
    split
    · exact hk
    · exact h.held y hy
  · rcases List.mem_append.1 hx with hx | hx
    · exact h.held x hx
    · rw [List.mem_singleton.1 hx]; exact hk

theorem keeps_dropHold (h : Keeps P a s) (c : ChainId) (n : Nat) : Keeps P a (s.dropHold c n) :=
  ⟨fun x hx => h.held x (List.mem_filter.1 hx).1, h.mem, h.wf, h.notice, h.fixed⟩

/-- A hold record found is one of the list, and is that of the entry asked for. -/
theorem hold?_mem {s : State} {c : ChainId} {n : Nat} {k : Hold} (h : s.hold? c n = some k) :
    k ∈ s.holds ∧ k.chain = c ∧ k.addr = n := by
  unfold State.hold? at h
  have h1 := List.mem_of_find?_eq_some h
  have h2 := List.find?_some h
  simp only [Hold.isFor, Bool.and_eq_true, decide_eq_true_eq] at h2
  exact ⟨h1, h2.1, h2.2⟩

theorem keeps_modHold (h : Keeps P a s) (c : ChainId) (n : Nat) (f : Hold → Hold) (hf : ∀ k, (f k).addr = k.addr) :
    Keeps P a (s.modHold c n f) := by
  unfold State.modHold
  split
  · rename_i k hk
    exact keeps_putHold h _ (by rw [hf]; exact h.held k (hold?_mem hk).1)
  · exact h

theorem keeps_writeFinal (h : Keeps P a s) (k : Hold) (hk : Header P k.addr) : Keeps P a (s.writeFinal k) :=
  keeps_raise ((h.write4 _ hk).write0 _ hk) _

theorem keeps_retire (h : Keeps P a s) (k : Hold) (hk : Header P k.addr) : Keeps P a (s.retire k) :=
  keeps_dropHold (keeps_writeFinal h k hk) _ _

theorem keeps_syncHold (h : Keeps P a s) (k : Hold) (hk : Header P k.addr) : Keeps P a (s.syncHold k) := by
  unfold State.syncHold
  split
  · exact h
  · exact keeps_putHold (h.write0 _ hk) _ hk

theorem keeps_settle (h : Keeps P a s) (c : ChainId) (n : Nat) : Keeps P a (s.settle c n) := by
  unfold State.settle
  split
  · rename_i k hk
    have := h.held k (hold?_mem hk).1
    split
    · exact keeps_retire h k this
    · exact keeps_syncHold h k this
  · exact h

theorem keeps_endClient (h : Keeps P a s) (c : ChainId) (n : Nat) : Keeps P a (s.endClient c n) :=
  keeps_settle (keeps_modHold h _ _ _ (by intro k; rfl)) _ _

theorem keeps_endCursor (h : Keeps P a s) (c : ChainId) : Keeps P a (s.endCursor c) := by
  unfold State.endCursor
  split
  · exact keeps_settle (keeps_modHold h _ _ _ (by intro k; rfl)) _ _
  · exact h

theorem keeps_abandon (h : Keeps P a s) (c : ChainId) : Keeps P a (s.abandon c) :=
  keeps_setChain (keeps_endCursor h c) _ _

/-- A fold of an operation that keeps. -/
theorem Keeps.foldl {α : Type} (f : State → α → State) (l : List α)
    (hf : ∀ t, Keeps P a t → ∀ x ∈ l, Keeps P a (f t x)) (h : Keeps P a s) : Keeps P a (l.foldl f s) := by
  induction l generalizing s with
  | nil => exact h
  | cons x t ih =>
    exact ih (fun u hu y hy => hf u hu y (List.mem_cons_of_mem _ hy)) (hf s h x (List.mem_cons_self ..))

theorem keeps_moveCursor (h : Keeps P a s) (c : ChainId) (as : List Nat) : Keeps P a (s.moveCursor c as) := by
  unfold State.moveCursor
  split
  · exact h
  · exact keeps_setChain (Keeps.foldl _ _ (fun t ht x _ => keeps_settle ht _ _) (keeps_endCursor h c)) _ _

theorem markLast_addr {hs : List Hold} {k : Hold} (h : k ∈ markLast hs) : ∃ j ∈ hs, k.addr = j.addr := by
  induction hs with
  | nil => simp [markLast] at h
  | cons x t ih =>
    cases t with
    | nil =>
      simp only [markLast, List.mem_singleton] at h
      exact ⟨x, by simp, by rw [h]⟩
    | cons y t =>
      simp only [markLast, List.mem_cons] at h
      rcases h with h | h
      · exact ⟨x, by simp, by rw [h]⟩
      · obtain ⟨j, hj, he⟩ := ih (by simpa [markLast] using h)
        exact ⟨j, by simp [hj], he⟩

theorem keeps_consume (h : Keeps P a s) (c : ChainId) (hs : List Hold) (hP : ∀ k ∈ hs, Header P k.addr) :
    Keeps P a (s.consume c hs) := by
  refine keeps_moveCursor (Keeps.foldl _ _ (fun t ht k hk => keeps_putHold ht k ?_) h) _ _
  obtain ⟨j, hj, he⟩ := markLast_addr hk
  rw [he]
  exact hP j hj

/-! ## The polling event -/

theorem keeps_faultWord (h : Keeps P a s) (c : ChainId) (n : Nat) (v : Word) (bad : Bool)
    (hn : ∀ x, n ≤ x → x < n + 4 → P x) : Keeps P a (s.faultWord c n v bad) := by
  unfold State.faultWord
  split
  · exact keeps_setChain (Keeps.freeIx (h.write _ _ _ hn) _) _ _
  · exact h.write _ _ _ hn

theorem keeps_writeFault (h : Keeps P a s) (c : ChainId) (e : LinkErrs) (n : Nat) (hn : Header P n) :
    Keeps P a (s.writeFault c e n) :=
  keeps_raiseIf (keeps_faultWord (keeps_faultWord h _ _ _ _ (fun x h1 h2 => hn x (by omega) (by omega))) _ _ _ _
    (fun x h1 h2 => hn x h1 (by omega))) _ _

theorem keeps_faultEntry (h : Keeps P a s) (c : ChainId) (e : LinkErrs) (n : Nat) (f : EntryFault)
    (hn : Header P n) : Keeps P a (s.faultEntry c e n f) :=
  keeps_faultChain (keeps_ite (keeps_writeFault h _ _ _ hn) h) _ _ _

theorem keeps_checkSerial (h : Keeps P a s) (c : ChainId) (e : LinkErrs) : Keeps P a (s.checkSerial c e).2 := by
  unfold State.checkSerial
  simp only
  split
  · exact keeps_rootReadError h c
  · split
    · exact h
    · exact keeps_setChain (keeps_abandon h c) _ _

theorem keeps_startLink (h : Keeps P a s) (c : ChainId) (e : LinkErrs) : Keeps P a (s.startLink c e).2 := by
  unfold State.startLink
  simp only
  split
  · exact h
  · split
    · split
      · exact keeps_faultChain h _ _ _
      · exact h
    · split
      · exact keeps_rootReadError h c
      · exact h

theorem keeps_runWalk {β : Type} (h : Keeps P a s) (rd : Reader β) (c : ChainId) (e : LinkErrs) (l : Option Nat)
    (hP : ∀ n ∈ reached (s.runWalk rd c e l).1 (some (s.runWalk rd c e l).2.1), Header P n) :
    Keeps P a (s.runWalk rd c e l).2.2 := by
  revert hP
  unfold State.runWalk
  simp only
  split
  · rename_i n f hw
    intro hP
    refine keeps_faultEntry h c e n f (hP n ?_)
    simp [reached, hw]
  · intro _; exact h
  · intro _; exact h

theorem keeps_pollWalk {β : Type} (h : Keeps P a s) (rd : Reader β) (c : ChainId) (e : LinkErrs)
    (hP : ∀ n ∈ reached (s.pollWalk rd c e).1 (s.pollWalk rd c e).2.1, Header P n) :
    Keeps P a (s.pollWalk rd c e).2.2 := by
  revert hP
  unfold State.pollWalk
  simp only
  split
  · intro _; exact keeps_startLink h c e
  · intro hP; exact keeps_runWalk (keeps_startLink h c e) rd c e _ hP

/-- The entries handed are among those reached. -/
theorem handed_reached {β : Type} {hs : List (Handed β)} {w : Option WalkEnd} {h : Handed β} (hm : h ∈ hs) :
    h.addr ∈ reached hs w :=
  List.mem_append_left _ (List.mem_map_of_mem hm)

/-! ## Screens, plans and admission -/

theorem keeps_recordShed (h : Keeps P a s) (i : ScreenId) (m : BitVec 6) : Keeps P a (s.recordShed i m) := by
  unfold State.recordShed
  split
  · exact h
  · exact keeps_settle (keeps_modHold h _ _ _ (by intro k; rfl)) _ _

theorem keeps_admit (h : Keeps P a s) (i : ScreenId) : Keeps P a (s.admission i) :=
  keeps_recordShed (keeps_raiseIf (keeps_modScreen h _ _) _ _) _ _

theorem keeps_endPlan (h : Keeps P a s) (i : ScreenId) : Keeps P a (s.endPlan i) := by
  unfold State.endPlan
  split
  · exact keeps_endClient (keeps_modHold h _ _ _ (by intro k; rfl)) _ _
  · exact h

theorem planHold_addr (i : ScreenId) (t : Option Plan) (h : Handed PlanBody) : (planHold i t h).addr = h.addr := by
  unfold planHold
  simp only
  split
  · rfl
  · split
    · split <;> rfl
    · rfl

theorem keeps_takePlans (h : Keeps P a s) (i : ScreenId) (hs : List (Handed PlanBody)) (r : Bool)
    (hP : ∀ k ∈ hs, Header P k.addr) : Keeps P a (s.takePlans i hs r) := by
  have hh : ∀ t, ∀ k ∈ hs.map (planHold i t), Header P k.addr := by
    intro t k hk
    obtain ⟨j, hj, rfl⟩ := List.mem_map.1 hk
    rw [planHold_addr]
    exact hP j hj
  unfold State.takePlans
  split
  · exact keeps_modScreen (keeps_consume (keeps_endPlan h i) _ _ (hh _)) _ _
  · simp only
    refine keeps_consume ?_ _ _ (hh _)
    split
    · exact keeps_modScreen (keeps_endPlan h i) _ _
    · exact h

theorem keeps_planAdvance (h : Keeps P a s) (i : ScreenId) (e : LinkErrs)
    (hP : ∀ n ∈ s.planReached i e, Header P n) : Keeps P a (s.planAdvance i e) := by
  unfold State.planAdvance
  simp only
  split
  · exact keeps_checkSerial h _ _
  · exact keeps_takePlans (keeps_pollWalk (keeps_checkSerial h _ _) _ _ _ hP) _ _ _
      (fun k hk => hP _ (handed_reached hk))

/-! ## Film streams -/

theorem keeps_endShown (h : Keeps P a s) (x : StreamId) : Keeps P a (s.endShown x) := by
  unfold State.endShown
  split
  · exact keeps_endClient h _ _
  · exact h

theorem keeps_restartStream (h : Keeps P a s) (x : StreamId) : Keeps P a (s.restartStream x) :=
  keeps_raiseIf (keeps_modStream (keeps_endShown h x) _ _) _ _

theorem keeps_stopStream (h : Keeps P a s) (x : StreamId) : Keeps P a (s.stopStream x) :=
  keeps_modStream (keeps_endShown (keeps_abandon h _) x) _ _

theorem frameHold_addr (x : StreamId) (m : Word) (t : Option (Frame × Deal)) (d : Dealt) :
    (frameHold x m t d).addr = d.1.addr := by
  unfold frameHold
  simp only
  split
  · rfl
  · split <;> rfl
  · rfl

theorem keeps_consumeFrames (h : Keeps P a s) (x : StreamId) (ds : List Dealt)
    (hP : ∀ d ∈ ds, Header P d.1.addr) : Keeps P a (s.consumeFrames x ds) := by
  have hh : ∀ m t, ∀ k ∈ ds.map (frameHold x m t), Header P k.addr := by
    intro m t k hk
    obtain ⟨j, hj, rfl⟩ := List.mem_map.1 hk
    rw [frameHold_addr]
    exact hP j hj
  have h1 : Keeps P a (if (takenOf ds).isSome then s.endShown x else s) := by
    split
    · exact keeps_endShown h x
    · exact h
  unfold State.consumeFrames
  simp only
  split
  · exact keeps_consume h1 _ _ (hh _ _)
  · exact keeps_modStream (keeps_consume h1 _ _ (hh _ _)) _ _

theorem select_mem {st : Settings} {m : Word} {hs : List (Handed Frame)} {pred : Option Word} {d : Dealt}
    (h : d ∈ select st m hs pred) : d.1 ∈ hs := by
  induction hs generalizing pred with
  | nil => simp [select] at h
  | cons x t ih =>
    simp only [select] at h
    split at h
    · rcases List.mem_cons.1 h with h | h
      · rw [h]; exact List.mem_cons_self ..
      · exact List.mem_cons_of_mem _ (ih h)
    · split at h
      · rw [List.mem_singleton.1 h]; exact List.mem_cons_self ..
      · split at h
        · simp at h
        · rcases List.mem_cons.1 h with h | h
          · rw [h]; exact List.mem_cons_self ..
          · exact List.mem_cons_of_mem _ (ih h)

theorem prime_mem {st : Settings} {hs : List (Handed Frame)} {d : Dealt} (h : d ∈ prime st hs) : d.1 ∈ hs := by
  induction hs with
  | nil => simp [prime] at h
  | cons x t ih =>
    simp only [prime] at h
    split at h
    · rcases List.mem_cons.1 h with h | h
      · rw [h]; exact List.mem_cons_self ..
      · exact List.mem_cons_of_mem _ (ih h)
    · rw [List.mem_singleton.1 h]; exact List.mem_cons_self ..

theorem keeps_streamWork (h : Keeps P a s) (x : StreamId) (p : Nat) (hs : List (Handed Frame)) (w : Option WalkEnd)
    (hP : ∀ k ∈ hs, Header P k.addr) : Keeps P a (s.streamWork x p hs w) := by
  unfold State.streamWork
  split
  · exact h
  · unfold State.workPriming
    simp only
    have := keeps_consumeFrames h x (prime s.settings hs) (fun d hd => hP _ (prime_mem hd))
    split
    · exact keeps_modStream this _ _
    · exact this
  · unfold State.workPlaying
    exact keeps_modStream
      (keeps_consumeFrames (keeps_modStream h _ _) x _ (fun d hd => hP _ (select_mem hd))) _ _
  · exact keeps_modStream h _ _
  · split
    · exact h
    · exact keeps_modStream h _ _
  · exact h
  · exact h

theorem keeps_faultStream (h : Keeps P a s) (x : StreamId) : Keeps P a (s.faultStream x) := by
  unfold State.faultStream
  split
  · exact keeps_modStream h _ _
  · exact h

theorem keeps_countShown (h : Keeps P a s) (x : StreamId) : Keeps P a (s.countShown x) := by
  unfold State.countShown
  split
  · exact keeps_modHold h _ _ _ (by intro k; rfl)
  · exact h

theorem keeps_filmSerial (h : Keeps P a s) (x : StreamId) (e : LinkErrs) : Keeps P a (s.filmSerial x e).2 := by
  unfold State.filmSerial
  simp only
  split
  · exact keeps_restartStream (keeps_checkSerial h _ _) x
  · exact keeps_checkSerial h _ _

theorem keeps_filmPoll (h : Keeps P a s) (x : StreamId) (k : Serial) (e : LinkErrs)
    (hP : ∀ n ∈ reached (s.filmPoll x k e).1 (s.filmPoll x k e).2.1, Header P n) :
    Keeps P a (s.filmPoll x k e).2.2 := by
  revert hP
  unfold State.filmPoll
  split
  · exact keeps_pollWalk h _ _ _
  · intro _; exact h

theorem keeps_paceActive (h : Keeps P a s) (x : StreamId) (p : Nat) (c : Controls) (e : LinkErrs)
    (hP : ∀ n ∈ s.filmReached x e, Header P n) : Keeps P a (s.paceActive x p c e) := by
  have h1 := keeps_modStream (keeps_filmPoll (keeps_filmSerial h x e) x _ e hP) x (fun y => y.takeNudge c)
  unfold State.paceActive
  simp only
  refine keeps_countShown (keeps_faultStream ?_ x) x
  split
  · exact h1
  · exact keeps_streamWork h1 x p _ _ (fun k hk => hP _ (handed_reached hk))

theorem keeps_pace (h : Keeps P a s) (x : StreamId) (t p : Nat) (e : LinkErrs)
    (hP : ∀ n ∈ s.paceReached x t e, Header P n) : Keeps P a (s.pace x t p e) := by
  unfold State.pace
  simp only
  split
  · exact keeps_rootReadError h _
  · refine keeps_raiseIf ?_ _ _
    unfold State.paceWith
    simp only
    split
    · refine keeps_modStream ?_ _ _
      split
      · exact keeps_modStream h _ _
      · exact keeps_stopStream (keeps_modStream h _ _) x
    · refine keeps_paceActive ?_ x p _ e hP
      split
      · exact keeps_modStream (keeps_modStream h _ _) _ _
      · exact keeps_modStream h _ _

theorem keeps_paceStreams (h : Keeps P a s) (i : ScreenId) (t : Nat) (e : LinkErrs)
    (hP : ∀ n ∈ s.pacesReached i t e, Header P n) : Keeps P a (s.paceStreams i t e) := by
  have ha : ∀ n ∈ s.paceReached .a t e, Header P n := fun n hn => hP n (List.mem_append_left _ hn)
  have hb : ∀ n ∈ (if (s.streams.get .a).pacedBy i t then s.pace .a t (s.screenSettings i).period e
      else s).paceReached .b t e, Header P n := fun n hn => hP n (List.mem_append_right _ hn)
  have h1 : Keeps P a (if (s.streams.get .a).pacedBy i t then s.pace .a t (s.screenSettings i).period e else s) :=
    keeps_ite (keeps_pace h _ _ _ _ ha) h
  exact keeps_ite (keeps_pace h1 _ _ _ _ hb) h1

/-! ## Pixels and frame starts -/

theorem keeps_sendPixel (h : Keeps P a s) (i : ScreenId) : Keeps P a (s.sendPixel i) := by
  unfold State.sendPixel
  simp only
  split
  · exact h
  · split
    · exact keeps_modScreen h _ _
    · exact h

theorem keeps_sendPixels (h : Keeps P a s) (i : ScreenId) (n : Nat) : Keeps P a (s.sendPixels i n) := by
  induction n generalizing s with
  | zero => exact h
  | succ n ih => exact ih (keeps_sendPixel h i)

theorem keeps_finishRefresh (h : Keeps P a s) (i : ScreenId) : Keeps P a (s.finishRefresh i) := keeps_sendPixels h i _

theorem keeps_setView (h : Keeps P a s) (v : Option View) : Keeps P a (s.setView v) :=
  keeps_raiseIf (keeps_modTakeover h _) _ _

theorem keeps_loseView (h : Keeps P a s) : Keeps P a s.loseView := keeps_modTakeover (keeps_setView h _) _

theorem keeps_waitView (h : Keeps P a s) : Keeps P a s.waitView := keeps_modTakeover (keeps_setView h _) _

theorem keeps_liveView (h : Keeps P a s) : Keeps P a s.liveView := keeps_modTakeover (keeps_setView h _) _

theorem keeps_capLoad (h : Keeps P a s) (n : Nat) : Keeps P a { s with capLoad := n } :=
  ⟨h.held, h.mem, h.wf, h.notice, h.fixed⟩

theorem keeps_enableCapture (h : Keeps P a s) : Keeps P a s.enableCapture :=
  keeps_capLoad (keeps_modTakeover (keeps_modCamera h _) _) _

theorem keeps_disableCapture (h : Keeps P a s) (b : Bool) : Keeps P a (s.disableCapture b) :=
  keeps_capLoad (keeps_modTakeover (keeps_setView (keeps_modCamera h _) _) _) _

theorem keeps_judgeCapture (h : Keeps P a s) : Keeps P a s.judgeCapture := by
  unfold State.judgeCapture
  split
  · split
    · exact h
    · exact keeps_waitView (keeps_enableCapture h)
  · split
    · exact keeps_disableCapture h _
    · exact h

theorem keeps_rotateBuffers (h : Keeps P a s) (c : Bool) : Keeps P a (s.rotateBuffers c) := by
  have h1 : Keeps P a (if (s.camera.enabled && c && (bufferOf s.camera.roles .ready).isSome) = true then
      (s.modCamera (fun c => { c with roles := moveRole (moveRole c.roles .shown .free) .ready .shown })).liveView
      else s) :=
    keeps_ite (keeps_liveView (keeps_modCamera h _)) h
  exact keeps_ite h1 (keeps_modCamera h1 _)

/-- Interpolation and marker placement change the guide set record alone. -/
theorem guideWork_eq (g : Guide) :
    g.interpolate.placeMarker.table = g.table ∧ g.interpolate.placeMarker.state = g.state ∧
    g.interpolate.placeMarker.reason = g.reason := by
  have h1 : ∀ g : Guide, g.interpolate.table = g.table ∧ g.interpolate.state = g.state ∧
      g.interpolate.reason = g.reason := by
    intro g
    unfold Guide.interpolate
    split <;> simp
  have h2 : ∀ g : Guide, g.placeMarker.table = g.table ∧ g.placeMarker.state = g.state ∧
      g.placeMarker.reason = g.reason := by
    intro g
    unfold Guide.placeMarker
    split
    · simp
    · split <;> simp
  exact ⟨(h2 _).1.trans (h1 _).1, (h2 _).2.1.trans (h1 _).2.1, (h2 _).2.2.trans (h1 _).2.2⟩

theorem keeps_cameraWork (h : Keeps P a s) : Keeps P a s.cameraWork := by
  unfold State.cameraWork
  simp only
  split
  · have hg := guideWork_eq (s.rotateBuffers s.cameraRefresh).guide
    exact keeps_guide (keeps_rotateBuffers h _) _ hg.1 hg.2.1 hg.2.2
  · exact keeps_rotateBuffers h _

theorem keeps_atCentre (h : Keeps P a s) (i : ScreenId) (f : State → State) (hf : Keeps P a (f s)) :
    Keeps P a (s.atCentre i f) := by
  cases i
  · exact hf
  · exact h
  · exact h

theorem keeps_setRefs (h : Keeps P a s) (i : ScreenId) (f : Hold → Bool) : Keeps P a (s.setRefs i f) := by
  unfold State.setRefs
  simp only
  refine Keeps.foldl _ _ (fun t ht k _ => keeps_settle ht _ _) ⟨?_, h.mem, h.wf, h.notice, h.fixed⟩
  intro k hk
  obtain ⟨j, hj, rfl⟩ := List.mem_map.1 hk
  exact h.held j hj

theorem keeps_countPlan (h : Keeps P a s) (i : ScreenId) : Keeps P a (s.countPlan i) := by
  unfold State.countPlan
  simp only
  split
  · split
    · exact h
    · exact keeps_modHold h _ _ _ (by intro k; rfl)
  · exact h

theorem keeps_beginRefresh (h : Keeps P a s) (i : ScreenId) : Keeps P a (s.beginRefresh i) :=
  keeps_setRefs (keeps_modScreen (keeps_countPlan h i) _ _) _ _

theorem keeps_frameStart (h : Keeps P a s) (i : ScreenId) (e : LinkErrs)
    (hP : ∀ n ∈ s.frameReached i e, Header P n) : Keeps P a (s.frameStart i e) := by
  have h1 := keeps_planAdvance (keeps_finishRefresh h i) i e (fun n hn => hP n (List.mem_append_left _ hn))
  have h2 : Keeps P a (s.admitted i e) :=
    keeps_admit (keeps_modScreen (keeps_atCentre h1 i _ (keeps_judgeCapture h1)) _ _) i
  have h3 := keeps_paceStreams h2 i (s.screens.get i).nextStart e (fun n hn => hP n (List.mem_append_right _ hn))
  exact keeps_beginRefresh (keeps_atCentre h3 i _ (keeps_cameraWork h3)) i

theorem keeps_endRefresh (h : Keeps P a s) (i : ScreenId) : Keeps P a (s.endRefresh i) := by
  have h1 : Keeps P a ((s.finishRefresh i).modScreen i
      (fun sc => { sc.stopped with genOn := decide ((s.finishRefresh i).runState = .run) })) :=
    keeps_modScreen (keeps_finishRefresh h i) _ _
  exact keeps_atCentre h1 i (fun s => s.modCamera (fun c => { c with roles := moveRole c.roles .shown .free }))
    (keeps_modCamera h1 _)

end

end Sys2Proof.Machine
end

