-- ==== Sys2Proof/Laws/KeepsChime.lean ====
section
/-! SUPPORT. `Keeps` for the chime engine, the takeover controller, the vehicle link and the status writer. -/

namespace Sys2Proof.Machine

section
variable {P : Nat → Prop} {a s : State}

/-! ## The chime engine -/

theorem Chime.library_followDuck (c : Chime) (n : Nat) : (c.followDuck n).library = c.library := by
  unfold Chime.followDuck
  split
  · rfl
  · split
    · split <;> rfl
    · rfl

theorem keeps_followDuck (h : Keeps P a s) : Keeps P a s.followDuck :=
  keeps_modChime h _ (Chime.library_followDuck _ _)

theorem Chime.library_judgeCadence (c : Chime) : c.judgeCadence.library = c.library := by
  unfold Chime.judgeCadence
  split <;> rfl

theorem Chime.library_makePending (c : Chime) (n : Nat) : (c.makePending n).library = c.library := by
  unfold Chime.makePending
  split <;> rfl

theorem Chime.library_takeZone (c : Chime) (n : Nat) (z : Zone) (d : Option Nat) :
    (c.takeZone n z d).library = c.library := by
  unfold Chime.takeZone
  simp only [Chime.library_judgeCadence]
  split
  · exact Chime.library_makePending _ _
  · rfl

/-- What a request for the sensor-fault chime does: the pending flag alone. -/
theorem Chime.makePending_eq (c : Chime) (n : Nat) :
    c.makePending n = { c with pending := c.pending || ((c.faultChime? n).isSome && !c.faultPlaying) } := by
  have stands : ∀ b, b = c.pending → c = { c with pending := b } := by rintro _ rfl; rfl
  unfold Chime.makePending
  cases hp : c.pending <;> cases (c.faultChime? n).isSome <;> cases c.faultPlaying <;>
    first | exact stands _ hp.symm | rfl

/-- The pending flag stands when the cadence is judged. -/
@[simp] theorem Chime.judgeCadence_pending (c : Chime) : c.judgeCadence.pending = c.pending := by
  unfold Chime.judgeCadence
  split <;> rfl

/-- The pending flag after a parking zone event. -/
theorem Chime.takeZone_pending (c : Chime) (n : Nat) (z : Zone) (d : Option Nat) :
    (c.takeZone n z d).pending = (c.pending || (decide (z = .unknown ∧ c.zone ≠ .unknown ∧ c.takeover ≠ .normal) &&
      (c.faultChime? n).isSome && !c.faultPlaying)) := by
  by_cases h : z = .unknown ∧ c.zone ≠ .unknown ∧ c.takeover ≠ .normal
  · simp [Chime.takeZone, h, Chime.makePending_eq, Chime.faultChime?, Chime.faultPlaying]
  · simp [Chime.takeZone, h]

/-- The pending flag after a change of the takeover state. -/
theorem Chime.takeTakeover_pending (c : Chime) (n : Nat) (t : TakeoverState) :
    (c.takeTakeover n t).pending = (decide (t ≠ .normal) && (c.pending ||
      (decide (c.takeover = .normal ∧ t = .active ∧ c.zone = .unknown) && (c.faultChime? n).isSome && !c.faultPlaying))) := by
  by_cases h : c.takeover = .normal ∧ t = .active ∧ c.zone = .unknown
  · obtain ⟨h1, rfl, h3⟩ := h
    simp [Chime.takeTakeover, h1, h3, Chime.makePending_eq, Chime.faultChime?, Chime.faultPlaying]
  · by_cases ht : t = .normal <;> simp [Chime.takeTakeover, h, ht]

theorem Chime.library_takeTakeover (c : Chime) (n : Nat) (t : TakeoverState) :
    (c.takeTakeover n t).library = c.library := by
  unfold Chime.takeTakeover
  simp only [Chime.library_judgeCadence]
  split <;> split <;> simp [Chime.library_makePending]

theorem keeps_handZone (h : Keeps P a s) (z : Zone) (d : Option Nat) : Keeps P a (s.handZone z d) :=
  keeps_followDuck (keeps_modChime h _ (Chime.library_takeZone _ _ _ _))

theorem keeps_handTakeover (h : Keeps P a s) (t : TakeoverState) : Keeps P a (s.handTakeover t) :=
  keeps_followDuck (keeps_modChime h _ (Chime.library_takeTakeover _ _ _))

theorem keeps_settleChime (h : Keeps P a s) (n : Nat) : Keeps P a (s.settleChime n) := by
  unfold State.settleChime
  split
  · exact keeps_ite (keeps_settle h _ _) h
  · exact h

theorem keeps_endChime (h : Keeps P a s) (n : Nat) (v : EntryState) (k : Nat) : Keeps P a (s.endChime n v k) :=
  keeps_settleChime (keeps_modHold h _ _ _ (by intro k; rfl)) _

theorem keeps_dropChime (h : Keeps P a s) (q : QEntry) : Keeps P a (s.dropChime q) :=
  keeps_endChime (keeps_modChime h _ rfl) _ _ _

theorem keeps_placeAlert (h : Keeps P a s) (q : QEntry) : Keeps P a (s.placeAlert q) :=
  keeps_ite (keeps_modChime h _ rfl) (keeps_dropChime h q)

theorem keeps_replaceClick (h : Keeps P a s) (q : QEntry) : Keeps P a (s.replaceClick q) := by
  unfold State.replaceClick
  split
  · exact keeps_dropChime (keeps_modChime h _ rfl) _
  · exact h

theorem keeps_insertUi (h : Keeps P a s) (q : QEntry) : Keeps P a (s.insertUi q) := by
  unfold State.insertUi
  split
  · exact keeps_modChime h _ rfl
  · split
    · split
      · exact keeps_modChime (keeps_dropChime (keeps_modChime h _ rfl) _) _ rfl
      · exact keeps_dropChime h q
    · exact keeps_dropChime h q

theorem keeps_placeUi (h : Keeps P a s) (q : QEntry) : Keeps P a (s.placeUi q) :=
  keeps_insertUi (keeps_replaceClick h q) q

theorem keeps_cancelOne (h : Keeps P a s) (q : QEntry) : Keeps P a (s.cancelOne q) :=
  keeps_endChime (keeps_modChime h _ rfl) _ _ _

theorem keeps_dealChime (h : Keeps P a s) (k : Handed ChimeBody) (b : Bool) (hk : Header P k.addr) :
    Keeps P a (s.dealChime k b) := by
  unfold State.dealChime
  simp only
  split
  · exact keeps_putHold (Keeps.foldl _ _ (fun t ht q _ => keeps_cancelOne ht q) h) _ hk
  · split
    · split
      · split
        · exact keeps_placeAlert (keeps_putHold h _ hk) _
        · exact keeps_placeUi (keeps_putHold h _ hk) _
        · exact keeps_placeUi (keeps_putHold h _ hk) _
      · exact keeps_modChime (keeps_putHold h _ hk) _ rfl
    · exact keeps_modChime (keeps_putHold h _ hk) _ rfl

theorem keeps_dealChimes (h : Keeps P a s) (l : List (Handed ChimeBody)) (hl : ∀ k ∈ l, Header P k.addr) :
    Keeps P a (s.dealChimes l) := by
  induction l generalizing s with
  | nil => exact h
  | cons x t ih =>
    cases t with
    | nil => exact keeps_dealChime h x true (hl x (by simp))
    | cons y t =>
      exact ih (keeps_dealChime h x false (hl x (by simp))) (fun k hk => hl k (List.mem_cons_of_mem _ hk))

theorem keeps_pollChimes (h : Keeps P a s) (e : LinkErrs) (hP : ∀ n ∈ s.chimeReached e, Header P n) :
    Keeps P a (s.pollChimes e) := by
  unfold State.pollChimes
  simp only
  split
  · exact keeps_checkSerial h _ _
  · exact keeps_moveCursor (keeps_dealChimes (keeps_pollWalk (keeps_checkSerial h _ _) _ _ _ hP) _
      (fun k hk => hP _ (handed_reached hk))) _ _

theorem keeps_beginEntry (h : Keeps P a s) (n : Nat) : Keeps P a (s.beginEntry n) :=
  keeps_settle (keeps_modHold h _ _ _ (by intro k; rfl)) _ _

theorem keeps_uiBegin (h : Keeps P a s) : Keeps P a s.uiBegin := by
  unfold State.uiBegin
  split
  · exact h
  · split
    · exact keeps_beginEntry (keeps_modChime h _ rfl) _
    · exact h

theorem keeps_pushBack (h : Keeps P a s) : Keeps P a s.pushBack := by
  unfold State.pushBack
  split
  · exact h
  · split
    · split
      · exact keeps_settle (keeps_modHold (keeps_modChime h _ rfl) _ _ _ (by intro k; rfl)) _ _
      · exact keeps_dropChime (keeps_modChime h _ rfl) _
    · exact h

theorem keeps_alertChoice (h : Keeps P a s) : Keeps P a s.alertChoice := by
  unfold State.alertChoice
  split
  · exact keeps_modChime (keeps_pushBack h) _ rfl
  · split
    · exact h
    · split
      · exact h
      · exact keeps_beginEntry (keeps_modChime h _ rfl) _

theorem Chime.library_startPeriod (c : Chime) (st : ChimeSettings) (g : GuideSettings) (o : Option Note) :
    (c.startPeriod st g o).library = c.library := by
  unfold Chime.startPeriod
  simp only
  split <;> rfl

theorem Chime.library_runCadence (c : Chime) (st : ChimeSettings) (g : GuideSettings) :
    (c.runCadence st g).library = c.library := by
  unfold Chime.runCadence
  split
  · rfl
  · split
    · split
      · exact Chime.library_startPeriod ..
      · split
        · exact Chime.library_startPeriod ..
        · rfl
      · exact Chime.library_startPeriod ..
    · split
      · split <;> rfl
      · simp only
        split <;> rfl

theorem keeps_chimeTick (h : Keeps P a s) (e : LinkErrs)
    (hP : ∀ n ∈ (s.modChime (fun c => { c with clipped := false })).chimeReached e, Header P n) :
    Keeps P a (s.chimeTick e) :=
  keeps_followDuck (keeps_modChime (keeps_alertChoice (keeps_uiBegin
    (keeps_pollChimes (keeps_modChime h _ rfl) e hP))) _ (Chime.library_runCadence _ _ _))

theorem keeps_alertComplete (h : Keeps P a s) : Keeps P a s.alertComplete := by
  unfold State.alertComplete
  split
  · exact h
  · split
    · exact keeps_modChime h _ rfl
    · simp only
      split
      · exact keeps_endChime (keeps_modChime h _ rfl) _ _ _
      · exact keeps_modChime h _ rfl

theorem keeps_uiComplete (h : Keeps P a s) : Keeps P a s.uiComplete := by
  unfold State.uiComplete
  split
  · exact h
  · split
    · exact h
    · simp only
      split
      · exact keeps_endChime (keeps_modChime h _ rfl) _ _ _
      · exact keeps_modChime h _ rfl

theorem keeps_sampleEvent (h : Keeps P a s) : Keeps P a s.sampleEvent := by
  have h1 : Keeps P a (s.modChime Chime.sample) := keeps_modChime h _ rfl
  have h2 := keeps_ite (c := s.chime.alert.sample.2.2 = true) (keeps_alertComplete h1) h1
  exact keeps_followDuck (keeps_ite (keeps_uiComplete h2) h2)

theorem keeps_chimeStandby (h : Keeps P a s) : Keeps P a s.chimeStandby :=
  Keeps.foldl _ _ (fun _ ht _ _ => keeps_endChime ht _ _ _) (keeps_modChime h _ rfl)

theorem keeps_chimeStop (h : Keeps P a s) : Keeps P a s.chimeStop :=
  Keeps.foldl _ _ (fun _ ht _ _ => keeps_modHold ht _ _ _ (by intro k; rfl)) (keeps_modChime h _ rfl)

/-! ## The takeover controller and the reverse monitor -/

/-- A change that reaches nothing that `Keeps` speaks of. -/
theorem Keeps.same {t : State} (h : Keeps P a s) (h1 : t.holds = s.holds) (h2 : t.mem = s.mem)
    (h3 : t.regs.notice = s.regs.notice) (h4 : t.fixed = s.fixed) : Keeps P a t :=
  ⟨by rw [h1]; exact h.held, by rw [h2]; exact h.mem, by rw [h2]; exact h.wf, by rw [h3]; exact h.notice,
   by rw [h4]; exact h.fixed⟩

theorem keeps_enterStandby (h : Keeps P a s) : Keeps P a s.enterStandby := by
  refine keeps_chimeStandby (keeps_disableCapture ?_ _)
  exact h.same rfl rfl rfl rfl

theorem keeps_resume (h : Keeps P a s) : Keeps P a s.resume := h.same rfl rfl rfl rfl

theorem keeps_setTakeover (h : Keeps P a s) (t : TakeoverState) : Keeps P a (s.setTakeover t) :=
  keeps_handTakeover (keeps_raise (keeps_modTakeover h _) _) _

theorem keeps_takeoverStart (h : Keeps P a s) : Keeps P a s.takeoverStart := by
  have h1 : Keeps P a { (s.setTakeover .active).modTakeover (fun t => { t with takeovers := bump t.takeovers }) with
      guide := (s.setTakeover .active).guide.setAngle (s.setTakeover .active).vehicle.angle } :=
    keeps_guide (keeps_modTakeover (keeps_setTakeover h _) _) _ rfl rfl rfl
  exact keeps_ite (keeps_ite (keeps_liveView h1) (keeps_waitView h1)) (keeps_waitView (keeps_enableCapture h1))

theorem keeps_backToActive (h : Keeps P a s) : Keeps P a s.backToActive := keeps_setTakeover (keeps_modTakeover h _) _

theorem keeps_toNormal (h : Keeps P a s) : Keeps P a s.toNormal :=
  keeps_judgeCapture (keeps_setTakeover (keeps_modTakeover h _) _)

theorem keeps_releaseActive (h : Keeps P a s) : Keeps P a s.releaseActive := by
  have h1 := keeps_setTakeover (keeps_modTakeover h (fun t => { t with linger := some s.settings.reverse.linger }))
    .linger
  exact keeps_ite (keeps_enterStandby (keeps_toNormal h))
    (keeps_ite (keeps_toNormal h) (keeps_ite (keeps_toNormal h1) h1))

theorem keeps_reverseEngaged (h : Keeps P a s) : Keeps P a s.reverseEngaged := by
  unfold State.reverseEngaged
  split
  · exact keeps_takeoverStart (keeps_raise (keeps_resume h) _)
  · split
    · exact keeps_takeoverStart h
    · exact keeps_backToActive h
    · exact h
  · exact h
  · exact h
  · exact h

theorem keeps_reverseReleased (h : Keeps P a s) : Keeps P a s.reverseReleased :=
  keeps_ite (keeps_releaseActive h) h

theorem keeps_judgeReverse (h : Keeps P a s) : Keeps P a s.judgeReverse := by
  have h1 := fun d : Bool => keeps_modTakeover h (fun t => { t with reverse := d })
  exact keeps_ite h (keeps_ite (keeps_reverseEngaged (h1 _)) (keeps_reverseReleased (h1 _)))

theorem keeps_dismiss (h : Keeps P a s) : Keeps P a s.dismiss := keeps_ite (keeps_toNormal h) h

theorem keeps_requestStandby (h : Keeps P a s) : Keeps P a s.requestStandby := by
  unfold State.requestStandby
  split
  · exact keeps_enterStandby h
  · exact keeps_enterStandby (keeps_toNormal h)
  · exact keeps_modTakeover h _

theorem keeps_writeStandby (h : Keeps P a s) (v : Bool) : Keeps P a (s.writeStandby v) := by
  have h1 : Keeps P a { s with regs := { s.regs with standby := v } } := h.same rfl rfl rfl rfl
  unfold State.writeStandby
  split
  · exact h
  · simp only
    split
    · exact keeps_requestStandby h1
    · exact keeps_modTakeover h1 _
    · exact keeps_judgeCapture (keeps_resume h1)
    · exact h1

/-! ## The camera port -/

theorem keeps_discardFrame (h : Keeps P a s) (e : CameraError) : Keeps P a (s.discardFrame e) :=
  keeps_raise (keeps_modCamera h _) _

/-- A pixel is written where `pixelAddr` says. -/
theorem keeps_writePixel (h : Keeps P a s) (y c : Byte)
    (hP : ∀ n, s.pixelAddr = some n → P n ∧ P (n + 1)) : Keeps P a (s.writePixel y c) := by
  unfold State.writePixel
  split
  · rename_i n hn
    obtain ⟨h1, h2⟩ := hP n hn
    refine ⟨h.held, ?_, fun hw => Mem.wf_set _ _ _ (Mem.wf_set _ _ _ (h.wf hw)), h.notice, h.fixed⟩
    intro x hx
    show Mem.get (Mem.set (Mem.set s.mem n y) (n + 1) c) x = _
    rw [Mem.get_set_ne _ _ (by intro he; rw [he] at hx; exact hx h2),
      Mem.get_set_ne _ _ (by intro he; rw [he] at hx; exact hx h1), h.mem x hx]
  · exact h

/-! ## The vehicle link -/

theorem keeps_renew (h : Keeps P a s) (k : Kind) (n : BitVec 4) : Keeps P a (s.renew k n) :=
  keeps_raiseIf (keeps_modVehicle h _) _ _

theorem keeps_judgeMotion (h : Keeps P a s) : Keeps P a s.judgeMotion := by
  have h1 := keeps_raise (keeps_modVehicle h
    (fun v => { v with motion := s.vehicle.motionNow s.settings.link })) .vehicle
  exact keeps_ite h (keeps_ite h1 (keeps_modScreen h1 _ _))

theorem keeps_setZone (h : Keeps P a s) (z : Zone) (d : Option Nat) : Keeps P a (s.setZone z d) :=
  keeps_handZone (keeps_guide h (s.guide.setZone z d) rfl rfl rfl) _ _

theorem keeps_recomputeDuties (h : Keeps P a s) : Keeps P a s.recomputeDuties := h.same rfl rfl rfl rfl

theorem Guide.steer_eq (g : Guide) (d : Nat) (w : Bool) (n : Int) :
    (g.steer d w n).table = g.table ∧ (g.steer d w n).state = g.state ∧ (g.steer d w n).reason = g.reason := by
  unfold Guide.steer
  split
  · split <;> exact ⟨rfl, rfl, rfl⟩
  · exact ⟨rfl, rfl, rfl⟩

theorem keeps_accept (h : Keeps P a s) (k : Kind) (l : List Byte) (n : BitVec 4) : Keeps P a (s.accept k l n) := by
  cases k
  · have hg := Guide.steer_eq (((s.renew .steer n).modVehicle (fun v => { v with angle := steerAngle l })).guide)
      ((s.renew .steer n).modVehicle (fun v => { v with angle := steerAngle l })).settings.guide.deadband
      s.vehicle.kinds.steer.fresh (steerAngle l)
    exact keeps_guide (keeps_modVehicle (keeps_renew h _ _) _) _ hg.1 hg.2.1 hg.2.2
  · have h1 := keeps_judgeMotion (keeps_modVehicle (keeps_renew h .speed n)
      (fun v => { v with speed := min (halfAt l 2) 30000, direction := directionOf (byteAt l 4) }))
    exact keeps_ite (keeps_toNormal h1) h1
  · exact keeps_setZone (keeps_modVehicle (keeps_renew h _ _) _) _ _
  · exact keeps_judgeReverse (keeps_modTakeover (keeps_modVehicle (keeps_renew h _ _) _) _)
  · exact keeps_recomputeDuties (keeps_modVehicle (keeps_renew h _ _) _)

theorem keeps_deliver (h : Keeps P a s) (l : List Byte) (j : Judged) : Keeps P a (s.deliver l j) := by
  unfold State.deliver
  split
  · exact keeps_ite h (keeps_accept h _ _ _)
  · exact keeps_ite h (keeps_modLink h _)

theorem keeps_stale (h : Keeps P a s) (k : Kind) : Keeps P a (s.stale k) := keeps_raise (keeps_modVehicle h _) _

theorem keeps_staleReaders (h : Keeps P a s) (k : Kind) : Keeps P a (s.staleReaders k) := by
  cases k
  · exact keeps_guide h _ rfl rfl rfl
  · exact keeps_judgeMotion h
  · exact keeps_setZone h _ _
  · exact h
  · exact h

/-! ## The status writer -/

theorem keeps_writePageWord (h : Keeps P a s) (o v : Nat) (ho : o + 4 ≤ 9216) (hP : s.PageIn P) :
    Keeps P a (s.writePageWord o v) :=
  h.write _ _ _ (fun x h1 h2 => hP x (by unfold State.pageAddr at h1; omega) (by unfold State.pageAddr at h2; omega))

theorem keeps_beginUpdate (h : Keeps P a s) (hP : s.PageIn P) : Keeps P a s.beginUpdate :=
  keeps_writePageWord (keeps_modStatus h _) _ _ (by omega) hP

theorem keeps_occasion (h : Keeps P a s) (hP : s.PageIn P) : Keeps P a s.occasion := keeps_ite h (keeps_beginUpdate h hP)

theorem keeps_drainWord (h : Keeps P a s) (hP : s.PageIn P) (hu : s.status.Aligned) : Keeps P a s.drainWord := by
  unfold State.drainWord
  split
  · exact h
  · rename_i u hs
    have := hu u hs
    split
    · rename_i hp
      unfold pageSize at hp
      exact keeps_ite (keeps_modStatus h _) (keeps_writePageWord (keeps_modStatus h _) _ _ (by omega) hP)
    · exact h

theorem drainWord_same (s : State) (hu : s.status.Aligned) :
    s.drainWord.book = s.book ∧ s.drainWord.status.Aligned := by
  unfold State.drainWord
  split
  · exact ⟨rfl, hu⟩
  · rename_i u hs
    have := hu u hs
    split
    · have key : ∀ t : State, t.status.update = some { u with pos := u.pos + 4 } → t.status.Aligned := by
        intro t ht v hv
        rw [ht] at hv
        cases hv
        show (u.pos + 4) % 4 = 0
        omega
      simp only
      split
      · exact ⟨rfl, key _ rfl⟩
      · exact ⟨rfl, key _ rfl⟩
    · exact ⟨rfl, hu⟩

theorem keeps_drainWords (h : Keeps P a s) (hP : s.PageIn P) (hu : s.status.Aligned) (n : Nat) :
    Keeps P a (s.drainWords n) ∧ (s.drainWords n).book = s.book := by
  induction n generalizing s with
  | zero => exact ⟨h, rfl⟩
  | succ n ih =>
    have hs := drainWord_same s hu
    have hp : s.drainWord.PageIn P := by unfold State.PageIn; rw [hs.1]; exact hP
    have := ih (keeps_drainWord h hP hu) hp hs.2
    exact ⟨this.1, this.2.trans hs.1⟩

theorem keeps_completeUpdate (h : Keeps P a s) (hP : s.PageIn P) (hu : s.status.Aligned) :
    Keeps P a s.completeUpdate := by
  unfold State.completeUpdate
  split
  · exact h
  · have hd := keeps_drainWords h hP hu s.wordsLeft
    refine keeps_modStatus (keeps_writePageWord hd.1 _ _ (by unfold endCountAt; omega) ?_) _
    unfold State.PageIn
    rw [hd.2]
    exact hP

theorem keeps_writeFreeze (h : Keeps P a s) (v : Bool) : Keeps P a (s.writeFreeze v) := by
  have h1 : Keeps P a { s with regs := { s.regs with freeze := v } } := h.same rfl rfl rfl rfl
  exact keeps_ite h (keeps_ite (keeps_ite (keeps_ite h1 (keeps_modStatus h1 _)) (keeps_modStatus h1 _)) h1)

theorem keeps_idle (h : Keeps P a s) (hP : s.PageIn P) (hu : s.status.Aligned) : Keeps P a s.idle := by
  have key : ∀ (t : State) (i : ScreenId), (t.sendPixel i).book = t.book ∧ (t.sendPixel i).status = t.status := by
    intro t i
    unfold State.sendPixel
    simp only
    split
    · exact ⟨rfl, rfl⟩
    · split <;> exact ⟨rfl, rfl⟩
  have h1 := key s .centre
  have h2 := key (s.sendPixel .centre) .left
  have h3 := key ((s.sendPixel .centre).sendPixel .left) .right
  refine keeps_drainWord (keeps_sendPixel (keeps_sendPixel (keeps_sendPixel h _) _) _) ?_ ?_
  · unfold State.PageIn
    rw [h3.1, h2.1, h1.1]
    exact hP
  · rw [h3.2, h2.2, h1.2]
    exact hu

/-! ## Stop and CTRL.RUN -/

theorem keeps_leaveAll (h : Keeps P a s) : Keeps P a { s with screens := s.screens.map Screen.leaveRun } :=
  h.same rfl rfl rfl rfl

theorem keeps_toStopping (h : Keeps P a s) :
    Keeps P a { s with runState := .stopping, regs := { s.regs with run := false } } := h.same rfl rfl rfl rfl

theorem keeps_monitorOff (h : Keeps P a s) :
    Keeps P a { s with monitor := { s.monitor with on := false, settle := none }, blinkRunning := false,
                       blinkOn := true } := h.same rfl rfl rfl rfl

theorem keeps_enterStopping (h : Keeps P a s) : Keeps P a s.enterStopping := by
  unfold State.enterStopping
  simp only
  refine keeps_disableCapture (keeps_leaveAll ?_) _
  refine keeps_chimeStop ?_
  refine keeps_modTakeover ?_ _
  have h1 := keeps_monitorOff (keeps_modVehicle (keeps_modLink (keeps_toStopping h)
    (fun r => { r.clear with on := false, waitIdle := false }))
    (fun v => { v with kinds := v.kinds.map (fun k => { k with timer := none }) }))
  exact keeps_ite h1 (keeps_setTakeover h1 _)

theorem keeps_stopWrite (h : Keeps P a s) (k : Hold) (o v : Nat) (b : Bool) (hP : Header P k.addr) (ho : o + 4 ≤ 8) :
    Keeps P a (s.stopWrite k o v b) := by
  have hw : ∀ v, Keeps P a { s with mem := Mem.writeLE s.mem (k.addr + o) 4 v } :=
    fun v => h.write _ _ _ (fun x h1 h2 => hP x (by omega) (by omega))
  unfold State.stopWrite
  split
  · exact keeps_statusWriteFailed (Keeps.freeIx (hw _) _) _ _
  · exact hw v

theorem keeps_stopEntry (h : Keeps P a s) (e : LinkErrs) (k : Hold) (hP : Header P k.addr) :
    Keeps P a (State.stopEntry e s k) :=
  keeps_dropHold (keeps_raise (keeps_stopWrite (keeps_stopWrite h _ _ _ _ hP (by omega)) _ _ _ _ hP (by omega)) _) _ _

theorem keeps_stopHolds (h : Keeps P a s) (e : LinkErrs) : Keeps P a (s.stopHolds e) :=
  Keeps.foldl _ _ (fun _ ht k hk => keeps_stopEntry ht e k (h.held k hk)) h

theorem keeps_stopBlocks (h : Keeps P a s) : Keeps P a s.stopBlocks := by
  refine keeps_raiseIf ?_ _ _
  exact ⟨by simp, h.mem, h.wf, h.notice, h.fixed⟩

theorem keeps_enterOff (h : Keeps P a s) : Keeps P a s.enterOff := by
  refine keeps_modStatus ?_ _
  exact h.same rfl rfl rfl rfl

end

end Sys2Proof.Machine
end

