-- ==== Sys2Proof/WellFormed.lean ====
section
/-! DEFINITION. Which commands are well formed: every operand lies in the range its row gives it. -/

namespace Sys2Proof

/-- Every address the link port reports lies in the 64-bit address space. -/
def LinkErrs.wf (e : LinkErrs) : Bool :=
  e.reads.all (· < 2 ^ 64) && e.writes.all (· < 2 ^ 64)

/-- A plan holds one to six layer records (Table 2-2); the takeover elements stand on the centre screen only. -/
def FetchElement.wf (i : ScreenId) : FetchElement → Bool
  | .layer idx => idx < 6
  | .takeoverCamera => i = .centre
  | .takeoverCells => i = .centre

/-- The check of one command. -/
def Instr.wf : Instr → Bool
  | .startCompleted e => e.wf
  | .startRefused e => e.wf
  | .stopCompleted e => e.wf
  | .registerWrite off width _ => off < 4096 && (width = 1 || width = 2 || width = 4 || width = 8)
  | .frameStart _ e => e.wf
  | .fetchError i x => x.wf i
  | .statusWriteError _ addr _ => addr.toNat % 16 = 0
  | .chimeTick e => e.wf
  | .powerOnReset => true
  | .softReset => true
  | .bookaddrWrite _ => true
  | .start => true
  | .stop => true
  | .standbyRequest => true
  | .standbyReturn => true
  | .freezeRequest => true
  | .freezeClear => true
  | .irqEnable _ => true
  | .dismiss => true
  | .force => true
  | .noticeClear _ => true
  | .noticeMaskWrite _ => true
  | .refreshCompleted _ => true
  | .statusTimerExpiry => true
  | .statusUpdateEnd => true
  | .pageWriteError => true
  | .freezeTimerExpiry => true
  | .messageBoundary => true
  | .freshnessTimerExpiry _ => true
  | .reverseLineActive _ => true
  | .reverseLineInactive _ => true
  | .settleTimerExpiry => true
  | .lingerTimerExpiry => true
  | .startLimitExpiry => true
  | .silenceTimerExpiry => true
  | .cameraFrameStartMarker => true
  | .cameraLineMarker => true
  | .cameraPixel _ _ => true
  | .cameraFrameEndMarker => true
  | .cameraWriteError => true
  | .audioSampleEvent => true
  | .blinkPhaseChange => true
  | .duckTimerExpiry => true
  | .vehicleLinkByte _ => true
  | .receiverIdleWaitEnd => true
  | .pwmPeriodStart _ => true

end Sys2Proof
end

