-- ==== Sys2Proof/Laws/PerInstr.lean ====
section
/-! SUPPORT. What holds of every command as syntax, one lemma for each constructor. The family `AddressesInSpace`: every
host memory address a well-formed command carries lies in the 64-bit address space (Log 25). -/

namespace Sys2Proof

/-- The host memory addresses a command carries: those the link port reports failing, and that of a failed write. -/
def Instr.addresses : Instr → List Nat
  | .startCompleted e => e.reads ++ e.writes
  | .startRefused e => e.reads ++ e.writes
  | .stopCompleted e => e.reads ++ e.writes
  | .frameStart _ e => e.reads ++ e.writes
  | .chimeTick e => e.reads ++ e.writes
  | .statusWriteError _ a _ => [a.toNat]
  | .powerOnReset => []
  | .softReset => []
  | .bookaddrWrite _ => []
  | .start => []
  | .stop => []
  | .standbyRequest => []
  | .standbyReturn => []
  | .freezeRequest => []
  | .freezeClear => []
  | .irqEnable _ => []
  | .dismiss => []
  | .force => []
  | .noticeClear _ => []
  | .noticeMaskWrite _ => []
  | .registerWrite _ _ _ => []
  | .refreshCompleted _ => []
  | .fetchError _ _ => []
  | .statusTimerExpiry => []
  | .statusUpdateEnd => []
  | .pageWriteError => []
  | .freezeTimerExpiry => []
  | .messageBoundary => []
  | .freshnessTimerExpiry _ => []
  | .reverseLineActive _ => []
  | .reverseLineInactive _ => []
  | .settleTimerExpiry => []
  | .lingerTimerExpiry => []
  | .startLimitExpiry => []
  | .silenceTimerExpiry => []
  | .cameraFrameStartMarker => []
  | .cameraLineMarker => []
  | .cameraPixel _ _ => []
  | .cameraFrameEndMarker => []
  | .cameraWriteError => []
  | .audioSampleEvent => []
  | .blinkPhaseChange => []
  | .duckTimerExpiry => []
  | .vehicleLinkByte _ => []
  | .receiverIdleWaitEnd => []
  | .pwmPeriodStart _ => []

/-- The addresses of a well-formed record of link errors. -/
theorem LinkErrs.wf_addresses {e : LinkErrs} (h : e.wf = true) : ∀ a ∈ e.reads ++ e.writes, a < 2 ^ 64 := by
  simp only [LinkErrs.wf, Bool.and_eq_true, List.all_eq_true, decide_eq_true_eq] at h
  intro a ha
  rcases List.mem_append.mp ha with h1 | h1
  · exact h.1 a h1
  · exact h.2 a h1

namespace Laws.AddressesInSpace

/-- Every host memory address of a well-formed command is a 64-bit address. -/
def Statement (i : Instr) : Prop := i.wf = true → ∀ a ∈ i.addresses, a < 2 ^ 64

theorem powerOnReset : Statement .powerOnReset := fun _ _ h => nomatch h

theorem softReset : Statement .softReset := fun _ _ h => nomatch h

theorem bookaddrWrite (w : BookWrite) : Statement (.bookaddrWrite w) := fun _ _ h => nomatch h

theorem start : Statement .start := fun _ _ h => nomatch h

theorem startCompleted (e : LinkErrs) : Statement (.startCompleted e) := fun h => LinkErrs.wf_addresses h

theorem startRefused (e : LinkErrs) : Statement (.startRefused e) := fun h => LinkErrs.wf_addresses h

theorem stop : Statement .stop := fun _ _ h => nomatch h

theorem stopCompleted (e : LinkErrs) : Statement (.stopCompleted e) := fun h => LinkErrs.wf_addresses h

theorem standbyRequest : Statement .standbyRequest := fun _ _ h => nomatch h

theorem standbyReturn : Statement .standbyReturn := fun _ _ h => nomatch h

theorem freezeRequest : Statement .freezeRequest := fun _ _ h => nomatch h

theorem freezeClear : Statement .freezeClear := fun _ _ h => nomatch h

theorem irqEnable (v : Bool) : Statement (.irqEnable v) := fun _ _ h => nomatch h

theorem dismiss : Statement .dismiss := fun _ _ h => nomatch h

theorem force : Statement .force := fun _ _ h => nomatch h

theorem noticeClear (v : Word) : Statement (.noticeClear v) := fun _ _ h => nomatch h

theorem noticeMaskWrite (v : Word) : Statement (.noticeMaskWrite v) := fun _ _ h => nomatch h

theorem registerWrite (off : Nat) (width : Nat) (v : BitVec 64) : Statement (.registerWrite off width v) := fun _ _ h => nomatch h

theorem frameStart (i : ScreenId) (e : LinkErrs) : Statement (.frameStart i e) := fun h => LinkErrs.wf_addresses h

theorem refreshCompleted (i : ScreenId) : Statement (.refreshCompleted i) := fun _ _ h => nomatch h

theorem fetchError (i : ScreenId) (x : FetchElement) : Statement (.fetchError i x) := fun _ _ h => nomatch h

theorem statusWriteError (c : ChainId) (addr : BitVec 64) (w : EntryWord) : Statement (.statusWriteError c addr w) := by
  intro _ a h
  rw [List.mem_singleton.mp h]
  exact addr.isLt

theorem statusTimerExpiry : Statement .statusTimerExpiry := fun _ _ h => nomatch h

theorem statusUpdateEnd : Statement .statusUpdateEnd := fun _ _ h => nomatch h

theorem pageWriteError : Statement .pageWriteError := fun _ _ h => nomatch h

theorem freezeTimerExpiry : Statement .freezeTimerExpiry := fun _ _ h => nomatch h

theorem messageBoundary : Statement .messageBoundary := fun _ _ h => nomatch h

theorem freshnessTimerExpiry (k : Kind) : Statement (.freshnessTimerExpiry k) := fun _ _ h => nomatch h

theorem reverseLineActive (ms : Nat) : Statement (.reverseLineActive ms) := fun _ _ h => nomatch h

theorem reverseLineInactive (ms : Nat) : Statement (.reverseLineInactive ms) := fun _ _ h => nomatch h

theorem settleTimerExpiry : Statement .settleTimerExpiry := fun _ _ h => nomatch h

theorem lingerTimerExpiry : Statement .lingerTimerExpiry := fun _ _ h => nomatch h

theorem startLimitExpiry : Statement .startLimitExpiry := fun _ _ h => nomatch h

theorem silenceTimerExpiry : Statement .silenceTimerExpiry := fun _ _ h => nomatch h

theorem cameraFrameStartMarker : Statement .cameraFrameStartMarker := fun _ _ h => nomatch h

theorem cameraLineMarker : Statement .cameraLineMarker := fun _ _ h => nomatch h

theorem cameraPixel (y : Byte) (c : Byte) : Statement (.cameraPixel y c) := fun _ _ h => nomatch h

theorem cameraFrameEndMarker : Statement .cameraFrameEndMarker := fun _ _ h => nomatch h

theorem cameraWriteError : Statement .cameraWriteError := fun _ _ h => nomatch h

theorem chimeTick (e : LinkErrs) : Statement (.chimeTick e) := fun h => LinkErrs.wf_addresses h

theorem audioSampleEvent : Statement .audioSampleEvent := fun _ _ h => nomatch h

theorem blinkPhaseChange : Statement .blinkPhaseChange := fun _ _ h => nomatch h

theorem duckTimerExpiry : Statement .duckTimerExpiry := fun _ _ h => nomatch h

theorem vehicleLinkByte (b : LineByte) : Statement (.vehicleLinkByte b) := fun _ _ h => nomatch h

theorem receiverIdleWaitEnd : Statement .receiverIdleWaitEnd := fun _ _ h => nomatch h

theorem pwmPeriodStart (i : ScreenId) : Statement (.pwmPeriodStart i) := fun _ _ h => nomatch h

end Laws.AddressesInSpace

end Sys2Proof
end

