-- ==== Sys2Proof/Laws/Pixels.lean ====
section
/-! SUPPORT. How a refresh is sent: pixel after pixel, and the cell layers that clamp anew at each. -/

namespace Sys2Proof.Machine

/-- The pixels of a screen's refresh, one after another. -/
theorem State.sendPixels_eq_foldl (s : State) (i : ScreenId) (n : Nat) :
    s.sendPixels i n = (List.range n).foldl (fun u _ => u.sendPixel i) s := by
  induction n generalizing s with
  | zero => rfl
  | succ n ih => rw [State.sendPixels, ih, List.range_succ_eq_map, List.foldl_cons, List.foldl_map]

/-- Which cell layers clamp anew at a pixel (R86), as sending a pixel counts them. -/
theorem State.newlyClamped_eq (s : State) (r : Refresh) (col row : Nat) :
    s.newlyClamped r col row = (clampHits s r col row).filter (fun n => !r.clamped.contains n) := by
  have cell : ∀ (l : Layer) (sc : Nat),
      s.drawsClampedCell l sc col row = (match layerPixel l.x l.y l.w l.h col row with
        | none => false
        | some (i, j) => match cellPixel s.mem l sc r.set.blinkOn i j with | some (_, k) => k | none => false) := by
    intro l sc
    unfold State.drawsClampedCell
    cases layerPixel l.x l.y l.w l.h col row with
    | none => rfl
    | some p =>
      simp only [cellPixel]
      by_cases h : l.cells.cols ≤ p.1 / 16
      · simp [h, Nat.not_lt.mpr h]
      · simp [h, readCell, Nat.not_le.mp h]
        congr
  have hc : ∀ n, (!r.clamped.contains n) = decide (n ∉ r.clamped) := by intro n; simp
  simp only [hc]
  unfold State.newlyClamped clampHits
  congr 1
  split
  · simp only [takeoverCell]
    cases s.settings.cellLayer with
    | none => rfl
    | some l =>
      simp only [cell, takeoverIdx]
      by_cases hf : FetchElement.takeoverCells ∈ r.failed
      · simp [hf]
      · simp only [List.contains_iff_mem, hf]
        cases layerPixel l.x l.y l.w l.h col row with
        | none => simp
        | some p =>
          cases h : cellPixel s.mem l r.set.cellScroll r.set.blinkOn p.1 p.2 with
          | none => simp [h]
          | some q => obtain ⟨a, k⟩ := q; cases k <;> simp [h]
  · have hl : ∀ l : SetLayer, (decide (l.layer.kind = .cells) && !l.shed && !(l.layer.restricted && r.cover) &&
        decide (FetchElement.layer l.idx ∉ r.failed) && s.drawsClampedCell l.layer l.scroll col row) = clampedAt s r col row l := by
      intro l
      simp only [clampedAt, cell, Refresh.covers, Refresh.layerFailed]
      congr 2
      simp
    cases r.set.mode <;> simp only [hl, reduceCtorEq, or_self, or_true, true_or, if_true, if_false]

end Sys2Proof.Machine
end

