-- ==== Sys2Proof/Tests/Slice0.lean ====
section
/-! SUPPORT. Tests: ill-formed commands are refused; the spec's worked examples, one step or one operation at a time; and
for each statement with hypotheses a state that meets them. Expected results come from the spec's examples and tables or
are computed from its rules by hand; each test names its section. -/

namespace Sys2Proof.Machine.Tests

/-! ## Ill-formed commands -/

theorem test_wf_read_beyond_the_address_space : (Instr.startCompleted ⟨[2 ^ 64], []⟩).wf = false := by decide
theorem test_wf_write_beyond_the_address_space : (Instr.stopCompleted ⟨[], [2 ^ 64]⟩).wf = false := by decide
theorem test_wf_refused_start_address : (Instr.startRefused ⟨[2 ^ 64 + 5], []⟩).wf = false := by decide
theorem test_wf_frame_start_address : (Instr.frameStart .left ⟨[0], [2 ^ 64]⟩).wf = false := by decide
theorem test_wf_chime_tick_address : (Instr.chimeTick ⟨[2 ^ 65], []⟩).wf = false := by decide
theorem test_wf_offset_beyond_the_bar : (Instr.registerWrite 4096 4 0).wf = false := by decide
theorem test_wf_width : (Instr.registerWrite 0 3 0).wf = false := by decide
theorem test_wf_layer_number : (Instr.fetchError .centre (.layer 6)).wf = false := by decide
theorem test_wf_takeover_camera_on_a_rear_screen : (Instr.fetchError .left .takeoverCamera).wf = false := by decide
theorem test_wf_takeover_cells_on_a_rear_screen : (Instr.fetchError .right .takeoverCells).wf = false := by decide
theorem test_wf_misaligned_entry : (Instr.statusWriteError .chime 8 .status).wf = false := by decide
theorem test_wf_accepts :
    (Instr.registerWrite 4095 8 0).wf = true ∧ (Instr.fetchError .centre .takeoverCells).wf = true ∧
    (Instr.chimeTick ⟨[2 ^ 64 - 1], []⟩).wf = true := by decide

/-- No row of the table has bits. -/
theorem test_no_word_spells_a_command : decodeTableWord 32 0x12345678 = none := by decide
theorem test_withFetchWord_changes_nothing : State.reset.withFetchWord 32 1 = State.reset := by decide

/-! ## States for the tests -/

/-- The state a step answers. -/
def nextOf (o : Host.Outcome State Fault Refusal) : State :=
  match o with
  | .next t => t
  | _ => State.reset

/-- Numeric settings for the tests; the screens have no pixels, so that a frame start sends none. -/
def st0 : Settings :=
  { Settings.reset with
    windowBase := 0, windowSize := 0x100000
    screens := ⟨⟨0, 0, 24000, 0, ⟨20, 40, 60⟩⟩, ⟨0, 0, 24000, 8000, ⟨20, 40, 60⟩⟩, ⟨0, 0, 24000, 16000, ⟨20, 40, 60⟩⟩⟩
    budget := 800000, pwm := 200, takeoverBrightness := 255, brightnessFloor := 64, nudgeRate := 16, blinkPeriod := 1000
    link := { bitRate := 9600, parity := .even, stopBits := 1, fresh := ⟨100, 200, 300, 400, 500⟩, restrictOff := 300,
              restrictOn := 800 }
    reverse := { source := .line, activeLow := false, glitch := 5, settleOn := 50, settleOff := 200, linger := 3000,
                 lingerExit := 1500 }
    camera := { Settings.reset.camera with
                width := 2, height := 1, period := 3000, startLimit := 500, silence := 200,
                buffers := ⟨0x40000, 0x50000, 0x60000⟩ }
    guide := { Settings.reset.guide with enable := true, lineWidth := 4, deadband := 20, dNear := 30, dFar := 150 }
    chime := { Settings.reset.chime with parkLevel := 100, parkFreq := 1000, parkAttack := 5, parkRelease := 5, tMin := 150,
                                         tMax := 900, beep := 60, duckHold := 20 } }

/-- A part in RUN with nothing linked. -/
def run0 : State :=
  { State.reset with
    runState := .run, settings := st0, book := 0x10000
    regs := { Regs.reset with run := true, bookAddr := 0x10000 }
    screens := ⟨{ Screen.reset with genOn := true }, { Screen.reset with genOn := true },
                { Screen.reset with genOn := true }⟩
    blinkRunning := true
    link := { Receiver.reset with on := true }
    monitor := { Monitor.reset with on := true }
    chime := { Chime.reset with tickOn := true }
    status := { StatusWriter.reset with timerOn := true } }

/-- The part in the takeover state ACTIVE, its line decision engaged and capture enabled. -/
def active0 : State :=
  { run0 with
    monitor := { run0.monitor with state := .engaged }
    takeover := { Takeover.reset with state := .active, reverse := true, view := some .wait, startLimit := some 500 }
    camera := { Camera.reset with enabled := true, unit := .seeking, roles := ⟨.capturing, .free, .free⟩ }
    capLoad := captureLoad st0.camera
    chime := { run0.chime with takeover := .active } }

/-- The same in LINGER. -/
def linger0 : State :=
  { active0 with
    monitor := { run0.monitor with state := .released }
    takeover := { active0.takeover with state := .linger, reverse := false, linger := some 3000 }
    chime := { run0.chime with takeover := .linger } }

/-- In STANDBY, without pictures. -/
def standby0 : State :=
  { run0 with
    runState := .standby, regs := { run0.regs with standby := true }
    screens := ⟨Screen.reset, Screen.reset, Screen.reset⟩, chime := Chime.reset }

/-- In STOPPING, with every refresh at its end and one plan held. -/
def stopping0 : State :=
  { run0 with
    runState := .stopping, regs := { run0.regs with run := false }
    screens := ⟨Screen.reset, Screen.reset, Screen.reset⟩, chime := Chime.reset
    holds := [{ Hold.fresh (.plan .left) 0x20000 with cursor := true, client := true, used := true, count := 3 }] }

/-- A refresh of the host's plan with two layers. -/
def refresh0 : Refresh :=
  { set := { mode := .normal, panel := .sending, background := ⟨20, 40, 60⟩, layers := [], takeover := false, view := none,
             shown := none, guide := GuideRec.reset, blinkOn := true, cellScroll := 0 },
    pos := 0, failed := [], clamped := [], cover := false, final := false }

/-- The centre has a refresh in progress. -/
def drawing0 : State := { run0 with screens := { run0.screens with centre := { run0.screens.centre with refresh := some refresh0 } } }

/-- A message waits in the receive buffer. -/
def withMessage (s : State) (l : List Byte) : State := { s with link := { s.link with buf := l } }

/-- The SPEED message of section 6.5.2. -/
def speedMessage : List Byte := [0x22, 0x05, 0xE2, 0x04, 0x00, 0xF3]

/-- A camera frame in progress, its one line begun. -/
def receiving0 : State := { active0 with camera := { active0.camera with unit := .receiving, lines := 1, inLine := true } }

/-! ## The spec's worked examples -/

/-- Section 10.2: an enabled interrupt follows a raise at once. -/
theorem test_force_raises_and_interrupts :
    (nextOf (exec .force { run0 with regs := { run0.regs with irqEnable := true, noticeMask := 0x1000 } })).irqLine = true := by
  decide

/-- Section 10.2: a write to NOTICE clears the flags written 1 alone. -/
theorem test_notice_clear :
    (nextOf (exec (.noticeClear 0x3) { run0 with regs := { run0.regs with notice := 0x7 } })).regs.notice = 0x4 := by decide

/-- Section 11.1: unassigned mask bits ignore writes. -/
theorem test_mask_write : (nextOf (exec (.noticeMaskWrite 0xFFFFFFFF) run0)).regs.noticeMask = 0x1FFF := by decide

/-- Section 10.1: a 4-byte write of CTRL starts the part. -/
theorem test_ctrl_write_starts :
    (nextOf (exec (.registerWrite 0x08 4 1) { State.reset with regs := { Regs.reset with bookAddr := 0x2000 } })).runState =
      .starting := by decide

/-- Section 10.1: an access of another width is ignored. -/
theorem test_narrow_write_is_ignored : exec (.registerWrite 0x08 2 1) State.reset = .next State.reset := rfl

/-- Section 10.1: the halves of BOOKADDR are written on their own. -/
theorem test_book_address_high_half :
    (nextOf (exec (.bookaddrWrite (.high 0x12)) { State.reset with regs := { Regs.reset with bookAddr := 0x34000 } })).regs.bookAddr =
      0x1200034000 := by decide

/-- Section 10.3: a book whose header does not hold 1 is refused. -/
theorem test_bad_format_is_refused :
    (nextOf (exec (.startRefused ⟨[], []⟩) { State.reset with runState := .starting, book := 0x1000 })).regs.startResult =
      .badFormat := by decide

/-- Section 3.3.1, Table 3-2: the three layers of the example, then inversion. -/
theorem test_blend_example :
    blend 200 ⟨128, 255, 255, 255⟩ ⟨200, 100, 50⟩ = ⟨222, 161, 130⟩ ∧
    blend 64 (expand565 (16 * 2048 + 32 * 32 + 8)) ⟨222, 161, 130⟩ = ⟨199, 153, 114⟩ ∧
    Rgb.invert ⟨199, 153, 114⟩ = ⟨56, 102, 141⟩ := by decide

/-- Section 3.4: the camera conversion of white, black and a strong red. -/
theorem test_camera_conversion :
    ycc 235 128 128 = ⟨255, 255, 255⟩ ∧ ycc 16 128 128 = ⟨0, 0, 0⟩ ∧ ycc 81 90 240 = ⟨255, 0, 0⟩ := by decide

/-- Section 2.7: loads and shedding of screen 1 in step 2. -/
theorem test_shed_example :
    kindLoad .film none (960 * 540) 24000 = 124416 ∧ kindLoad .cells none (1280 * 720) 24000 = 27648 ∧
    shedLoop [⟨0, 221184⟩, ⟨2, 27648⟩] 373248 260864 0 = { load := 152064, mask := 1, overload := false } := by decide

/-- Section 2.5: the night duty of the takeover picture is the floor. -/
theorem test_takeover_duty : takeoverDuty st0 40 = 64 := by decide

/-- Section 2.7: the capture load of a 1280 × 720 camera at 3000 ticks. -/
theorem test_capture_load : captureLoad { st0.camera with width := 1280, height := 720 } = 55296 := by decide

/-- Section 4.4.1: an even fine counter adds 1501, an odd one 1502. -/
theorem test_fine_insertion :
    (({ Stream.reset .left with clock := 0, fine := 0 } : Stream).fineInsert 24024).clock = 1501 ∧
    (({ Stream.reset .left with clock := 1501, fine := 1 } : Stream).fineInsert 24024).clock = 3003 := by decide

/-- A frame of the tests, with a pts. -/
def frame (pts : Nat) : Frame :=
  { addr := 0x30000, restart := false, last := false, format := some .rgb565, pts := BitVec.ofNat 32 pts, stride := 32,
    surface := 0x70000, width := 16, height := 16 }

/-- Section 4.4.2: refresh 1 of the nudge example. -/
theorem test_nudge_example :
    let y := (({ Stream.reset .right with state := .playing, clock := 28510, balance := -40, shown := some (frame 26250) } :
      Stream).fineInsert 24000).nudgeStep 16
    y.clock = 29994 ∧ y.balance = -24 := by decide

/-- Section 4.4.1: at clock 4504 the frame at 3750 is due and the one at 7500 is not. -/
theorem test_selection_example :
    (select st0 4504 [⟨0x30000, none, frame 3750⟩, ⟨0x30040, none, frame 7500⟩] (some 0)).length = 1 := by decide

/-- A stream root with requested state RUN and interval 3000, and one frame linked at 0x30000 (Tables 11-3 and 11-4). -/
def filmMem : Mem :=
  [(0x1044C, 1), (0x1044D, 1), (0x1044E, 0xB8), (0x1044F, 0x0B)].foldl (fun m c => Mem.set m c.1 c.2)
    (Mem.writeLE (Mem.writeLE (Mem.writeLE (Mem.writeLE (Mem.writeLE (Mem.writeLE (Mem.writeLE (Mem.writeLE []
      0x10440 8 0x30000) 0x30008 8 1) 0x30010 4 2) 0x3001C 4 32) 0x30020 8 0x70000) 0x30028 2 16) 0x3002A 2 16) 0x30018 4 500)

/-- Sections 4.3 and 4.4: a frame start of the pacing screen takes the first frame, sets the clock to its pts and gives it
TAKEN with the cursor mark. -/
theorem test_priming_takes_the_first_frame :
    let t := nextOf (exec (.frameStart .left ⟨[], []⟩) { run0 with mem := filmMem })
    t.streams.a.state = .playing ∧ t.streams.a.clock = 500 ∧ Mem.readLE t.mem 0x30000 4 = 0x81 := by decide +kernel

/-- A DARK plan of one FILL layer on the centre's chain (Tables 11-3 to 11-5). -/
def planMem : Mem :=
  [(0x20010, 1), (0x20014, 3), (0x20015, 200), (0x20029, 16), (0x2002B, 16)].foldl (fun m c => Mem.set m c.1 c.2)
    (Mem.writeLE (Mem.writeLE [] 0x10400 8 0x20000) 0x20008 8 1)

/-- Section 2.3: of the plans handed, the last valid one is taken, one before it is SKIPPED and held no more, one of an unknown
mode behind it is REJECTED and bears the cursor. -/
theorem witness_PlanAdvanceTakesTheLastValidPlan :
    let plan := fun (m : Mem) (a next mode : Nat) => [(a + 8, 8, next), (a + 16, 4, 1), (a + 20, 1, mode), (a + 40, 2, 1), (a + 42, 2, 1)].foldl
      (fun (m : Mem) (c : Nat × Nat × Nat) => Mem.writeLE m c.1 c.2.1 c.2.2) m
    let m := plan (plan (plan (Mem.writeLE [] 0x10400 8 0x20000) 0x20000 0x21000 0) 0x21000 0x22000 0) 0x22000 1 9
    let s : State := { run0 with mem := m }
    let t := s.planAdvance .centre ⟨[], []⟩
    s.CursorsHeld ∧ (s.checkSerial (.plan .centre) ⟨[], []⟩).1 ≠ .failed ∧
    t.screens.centre.plan.map (·.addr) = some 0x21000 ∧
    [0x20000, 0x21000, 0x22000].map (fun a => (t.hold? (.plan .centre) a).map (fun h => (h.cursor, h.client, h.verdict))) =
      [none, some (false, true, none), some (true, false, some .rejected)] ∧
    [0x20000, 0x21000, 0x22000].map (fun a => Mem.readLE t.mem a 4) = [9, 1, 0x81] := by
  refine ⟨?_, by decide +kernel⟩
  rintro (i | i | _) a h <;> (try cases i) <;> cases h

/-- Sections 2.2 and 5.1: the bounds of a layer's place and size, of its map and of its focus, and the kinds a screen takes. -/
theorem witness_PlanAdvanceTakesTheLastValidPlan_layers :
    let ok := fun l : Layer => l.valid st0 .centre
    let fill := { readLayer [] 0 with w := 1, h := 1 }
    let cells := { fill with
      kind := .cells, glyphs := 1024
      cells := { fill.cells with map := 0x70000, sheet := 0x40000, palette := 0x72000, cols := 128, rows := 1 } }
    [ok fill, ok { fill with w := 0 }, ok { fill with h := 4096 }, ok { fill with h := 4097 }, ok { fill with x := -4096 },
      ok { fill with x := 4096 }, ok { fill with kind := .film, stream := none }, ok { fill with kind := .unknown 5 }] =
      [true, false, true, false, true, false, false, false] ∧
    ({ fill with kind := .camera } : Layer).valid st0 .left = false ∧ ok { fill with kind := .camera } = true ∧
    [ok cells, ok { cells with glyphs := 1025 }, ok { cells with cells := { cells.cells with sheet := 0x40008 } },
      ok { cells with focusOn := true, cells := { cells.cells with col1 := 127 } },
      ok { cells with focusOn := true, cells := { cells.cells with col1 := 128 } },
      ok { cells with cells := { cells.cells with palette := 0xFFC10 } }] = [true, false, false, true, false, false] ∧
    (takePlan st0 .centre 0 ⟨some .normal, 9, [fill, { fill with w := 0 }, fill], false⟩).invalid = 2 := by decide +kernel

/-- Sections 2.3 to 2.5: a frame start takes the plan, and a DARK plan leaves the panel IDLE and the duty 0. -/
theorem test_frame_start_takes_a_plan :
    let t := nextOf (exec (.frameStart .centre ⟨[], []⟩) { run0 with mem := planMem })
    (t.screens.centre.plan).map (·.addr) = some 0x20000 ∧ t.screens.centre.panel = .idle ∧ t.screens.centre.duty = 0 := by
  decide +kernel

/-- Section 1.5: a link that is not a multiple of 16 faults the chain with ALIGNMENT, and nothing is written. -/
theorem test_misaligned_link_faults_the_chain :
    let s := { run0 with mem := Mem.writeLE [] 0x10400 8 0x20008 }
    let t := nextOf (exec (.frameStart .centre ⟨[], []⟩) s)
    (t.chain (.plan .centre)).cause = .alignment ∧ t.mem = s.mem := by decide +kernel

/-- Section 1.6: a failed status write faults the chain. -/
theorem test_status_write_error :
    ((nextOf (exec (.statusWriteError .chime 0x20000 .status) run0)).chain .chime).faultAddr = 0x20000 := by decide

/-- Section 5.3: layer pixel row 300 of a layer of 40 map rows scrolled by 360 shows map row 1, glyph row 4. -/
theorem test_scrolled_rows : (300 + 360) / 16 % 40 = 1 ∧ (300 + 360) % 16 = 4 := by decide

/-- Section 5.4: INVERT and focus cancel; one alone inverts the index; a blanked cell draws index 0. -/
theorem test_drawn_index :
    drawnIndex false true true 3 = 3 ∧ drawnIndex false true false 3 = 12 ∧ drawnIndex true true false 3 = 0 := by decide

/-- Section 6.2: a byte with a low stop bit is framing-damaged, whatever its parity. -/
theorem test_framing_before_parity :
    (nextOf (exec (.vehicleLinkByte ⟨false, 0x01, false, false, true⟩) run0)).link.damaged = some .framing := by decide

/-- Section 6.3: the receiver's wait for an idle line ends. -/
theorem test_idle_wait_ends :
    (nextOf (exec .receiverIdleWaitEnd { run0 with link := { run0.link with waitIdle := true } })).link.waitIdle = false := by
  decide

/-- Section 6.5.2: the SPEED message gives 1250 and FORWARD. -/
theorem test_speed_message :
    let t := nextOf (exec .messageBoundary (withMessage run0 speedMessage))
    t.vehicle.speed = 1250 ∧ t.vehicle.direction = .forward ∧ t.vehicle.motion = .moving := by decide

/-- Section 6.5.1: a repeated alive counter is counted and changes nothing. -/
theorem test_repeated_message :
    let s := withMessage run0 speedMessage
    let t := nextOf (exec .messageBoundary { s with vehicle := { s.vehicle with
      kinds := s.vehicle.kinds.set .speed { KindRec.reset with alive := some 5 } } })
    t.link.repeats = 1 ∧ t.vehicle.speed = 0 := by decide

/-- Section 6.5.1: a stale SPEED makes the motion state UNKNOWN and keeps the speed. -/
theorem test_stale_speed :
    let t := nextOf (exec (.freshnessTimerExpiry .speed) { run0 with vehicle := { run0.vehicle with
      speed := 300, motion := .still
      kinds := run0.vehicle.kinds.set .speed { KindRec.reset with fresh := true, timer := some 200 } } })
    t.vehicle.motion = .unknown ∧ t.vehicle.speed = 300 := by decide

/-- Section 7.2.1: a 3 ms pulse is a glitch, a 20 ms pulse a short pulse. -/
theorem test_glitch :
    (nextOf (exec (.reverseLineInactive 3) (nextOf (exec (.reverseLineActive 9) run0)))).monitor.glitches = 1 := by decide
theorem test_short_pulse :
    (nextOf (exec (.reverseLineInactive 20) (nextOf (exec (.reverseLineActive 9) run0)))).monitor.shorts = 1 := by decide

/-- Section 7.2.1: the settle timer engages reverse, and the takeover starts. -/
theorem test_settle_engages :
    (nextOf (exec .settleTimerExpiry (nextOf (exec (.reverseLineActive 0) run0)))).takeover.state = .active := by decide

/-- Section 7.4: reverse released in ACTIVE leads to LINGER. -/
theorem test_release_lingers :
    (nextOf (exec .settleTimerExpiry (nextOf (exec (.reverseLineInactive 400) active0)))).takeover.state = .linger := by decide

/-- Section 7.4: LINGER ends by its timer and by DISMISS, and capture without a reason ends with it. -/
theorem test_linger_ends : (nextOf (exec .lingerTimerExpiry linger0)).camera.enabled = false := by decide
theorem test_dismiss : (nextOf (exec .dismiss linger0)).takeover.state = .normal := by decide

/-- Section 7.8: WAIT becomes LOST at the start limit, LIVE at the silence limit. -/
theorem test_start_limit : (nextOf (exec .startLimitExpiry active0)).takeover.view = some .lost := by decide
theorem test_silence :
    (nextOf (exec .silenceTimerExpiry { active0 with takeover := { active0.takeover with
      view := some .live, startLimit := none, silence := some 200 } })).takeover.losts = 1 := by decide

/-- Section 7.7: a frame begins, a second frame-start marker truncates it. -/
theorem test_frame_start_marker : (nextOf (exec .cameraFrameStartMarker active0)).camera.unit = .receiving := by decide
theorem test_truncated_frame : (nextOf (exec .cameraFrameStartMarker
    { receiving0 with camera := { receiving0.camera with pixels := 2 } })).camera.truncErrs = 1 := by decide

/-- Section 7.7: a line marker beyond CH lines notes COUNT. -/
theorem test_line_marker : (nextOf (exec .cameraLineMarker
    { receiving0 with camera := { receiving0.camera with pixels := 2 } })).camera.error = some .count := by decide

/-- Section 7.7: the second pixel of line 0 lands at byte 2 of the buffer. -/
theorem test_pixel : Mem.readLE (nextOf (exec (.cameraPixel 0x11 0x22)
    { receiving0 with camera := { receiving0.camera with pixels := 1 } })).mem 0x40002 2 = 0x2211 := by decide

/-- Section 7.7: a correct frame makes its buffer READY and the lowest FREE one CAPTURING; a short line is discarded. -/
theorem test_correct_frame : (nextOf (exec .cameraFrameEndMarker
    { receiving0 with camera := { receiving0.camera with pixels := 2 } })).camera.roles = ⟨.ready, .capturing, .free⟩ := by decide
theorem test_discarded_frame : (nextOf (exec .cameraFrameEndMarker receiving0)).camera.lineErrs = 1 := by decide

/-- Section 7.7: a write error ends the frame's writes. -/
theorem test_camera_write_error : (nextOf (exec .cameraWriteError receiving0)).camera.writeStopped = true := by decide

/-- Section 8.2.1: rows 1, 2 and 4 of the deadband example. -/
theorem test_deadband :
    let g := fun (a : Int) => { Guide.reset with set := { GuideRec.reset with angleInUse := a } }
    ((g 1200).steer 20 true 1215).set.angleInUse = 1200 ∧ ((g 1200).steer 20 true 1221).set.angleInUse = 1221 ∧
    ((g 1221).steer 20 true 1201).set.angleInUse = 1201 := by decide

/-- Section 8.3.1: the weight and the point of the example, and the lowest bracket at a node. -/
theorem test_interpolation :
    bracketOf [-5400, -2700, 0, 2700, 5400] 1200 = 2 ∧ weightOf 0 2700 1200 = 113 ∧
    interpPt 113 ⟨420, 500⟩ ⟨505, 488⟩ = ⟨458, 495⟩ ∧ bracketOf [-5400, -2700, 0, 2700, 5400] 0 = 1 := by decide

/-- Section 8.5.1: zones from range values. -/
theorem test_zones :
    zoneOf st0.guide [0xFFFF, 240, 95, 0xFFFE] = .caution ∧ zoneOf st0.guide [150, 200, 0xFFFF, 0xFFFF] = .clear ∧
    zoneOf st0.guide [0xFFFE, 30, 0xFFFF, 41] = .stop ∧ zoneOf st0.guide [0xFFFE, 0xFFFE, 0xFFFF, 0xFFFF] = .clear ∧
    zoneOf st0.guide [0xFFFE, 0xFFFE, 0xFFFE, 0xFFFE] = .unknown := by decide

/-- The table of section 8.6.1, its static lines alone. -/
def markerTable : GuideTable :=
  { angles := [-100, 100], dists := [30, 100, 150, 300], colours := [0, 0, 0, 0], dynLeft := [], dynRight := [],
    statLeft := [⟨300, 700⟩, ⟨360, 560⟩, ⟨400, 470⟩, ⟨460, 330⟩],
    statRight := [⟨980, 700⟩, ⟨920, 560⟩, ⟨880, 470⟩, ⟨820, 330⟩] }

/-- Section 8.6.1: the marker at 120 cm. -/
theorem test_marker :
    let g := ({ Guide.reset with table := some markerTable, set := { GuideRec.reset with zone := .caution, dist := some 120 } } :
      Guide).placeMarker
    g.set.markerLeft = ⟨376, 524⟩ ∧ g.set.markerRight = ⟨904, 524⟩ := by decide

/-- A queued entry of the tests. -/
def entry (a tag : Nat) (cls : ChimeClass) (playing : Bool) : QEntry :=
  { addr := a, cls := cls, pattern := 0, repeats := 1, resumable := false, duck := false, tag := tag, plays := 0,
    playing := playing }

/-- The full UI queue of section 9.3.1: N1 playing, N2 to N7 and C1 waiting; N1 and N4 bear tag 7. -/
def burst0 : State :=
  { run0 with chime := { run0.chime with
    uiQ := [entry 1 7 .notice true, entry 2 0 .notice false, entry 3 0 .notice false, entry 4 7 .notice false,
            entry 5 0 .notice false, entry 6 0 .notice false, entry 7 0 .notice false, entry 11 0 .click false] } }

/-- Section 9.3.1: N8 takes the place of C1, N9 and C2 are dropped. -/
theorem test_burst :
    let s1 := burst0.placeUi (entry 8 0 .notice false)
    let s3 := (s1.placeUi (entry 9 0 .notice false)).placeUi (entry 12 0 .click false)
    s3.chime.uiQ.map (·.addr) = [1, 2, 3, 4, 5, 6, 7, 8] ∧ s3.chime.dropped = 3 := by decide

/-- Section 9.3.1: the CANCEL names N1 and N4. -/
theorem test_cancel : (burst0.chime.tagged 7).map (·.addr) = [1, 4] := by decide

/-- Section 9.5: a distance of 90 cm gives a period of 520 ms, of 60 cm one of 330 ms. -/
theorem test_cadence_period : cadencePeriod st0.chime st0.guide 90 = 520 ∧ cadencePeriod st0.chime st0.guide 60 = 330 := by
  decide

/-- Section 9.5: a chime tick in CAUTION starts a period. -/
theorem test_chime_tick_starts_the_cadence :
    let t := nextOf (exec (.chimeTick ⟨[], []⟩) { active0 with chime := { active0.chime with zone := .caution, dist := some 90 } })
    t.chime.cad = .caution ∧ t.chime.period = 520 ∧ t.chime.duck = true := by decide +kernel

/-- Section 9.6: outside RUN the audio port sends zeros. -/
theorem test_audio_outside_run :
    (nextOf (exec .audioSampleEvent { standby0 with chime := { standby0.chime with audioOut := 5 } })).chime.audioOut = 0 := by
  decide

/-- Section 9.6: a first sample of a SQUARE note of level 255 without attack is 32767 × 24480 / 32768. -/
theorem test_first_sample : toneSample ⟨440, .square, 0, 255⟩ 0 4096 = 24479 := by decide

/-- Section 9.7: the duck timer releases the line. -/
theorem test_duck_timer :
    (nextOf (exec .duckTimerExpiry { run0 with chime := { run0.chime with duck := true, duckTimer := some 20 } })).chime.duck =
      false := by decide

/-- Section 5.4: the blink phase turns. -/
theorem test_blink : (nextOf (exec .blinkPhaseChange run0)).blinkOn = false := by decide

/-- Section 2.5: a duty takes effect at a PWM period start. -/
theorem test_pwm : (nextOf (exec (.pwmPeriodStart .right)
    (run0.modScreen .right (fun sc => { sc with duty := 64 })))).screens.right.dutyOut = 64 := by decide

/-- Section 10.4: a standby request in NORMAL is granted at once; a return resumes RUN. -/
theorem test_standby : (nextOf (exec .standbyRequest run0)).runState = .standby := by decide
theorem test_return : (nextOf (exec .standbyReturn standby0)).screens.left.nextStart = 8000 := by decide

/-- Section 10.4: a stop enters STOPPING, and its completion OFF. -/
theorem test_stop : (nextOf (exec .stop run0)).runState = .stopping := by decide
theorem test_stop_retires :
    Mem.readLE (nextOf (exec (.stopCompleted ⟨[], []⟩) { stopping0 with
      status := { stopping0.status with frozen := true, freezeOn := true } })).mem 0x20000 8 = 8 + 3 * 2 ^ 32 := by decide +kernel

/-- Section 10.5: a freeze request without an update under way freezes at once; its clear and its timer end it. -/
theorem test_freeze : (nextOf (exec .freezeRequest run0)).status.frozen = true := by decide
theorem test_freeze_clear : (nextOf (exec .freezeClear (nextOf (exec .freezeRequest run0)))).status.frozen = false := by decide
theorem test_freeze_timer : (nextOf (exec .freezeTimerExpiry (nextOf (exec .freezeRequest run0)))).status.expired = true := by
  decide

/-- Section 10.5: an update begins with its count. -/
theorem test_update_begins :
    Mem.readLE (nextOf (exec .statusTimerExpiry run0)).mem 0x11C00 4 = 1 := by decide +kernel

/-- Section 10.5: a page write error ends the update and is counted. -/
theorem test_page_write_error :
    (nextOf (exec .pageWriteError { run0 with status := { run0.status with update := some ⟨1, [], 4⟩ } })).status.pageErrors = 1 := by
  decide

/-- Section 10.5: the update-end count is written last. -/
theorem test_update_ends :
    Mem.readLE (nextOf (exec .statusUpdateEnd { run0 with status := { run0.status with update := some ⟨7, [], 9216⟩ } })).mem
      0x11C3C 4 = 7 := by decide

/-- Section 3.7: a fetch error on the camera of the takeover picture, which lies on the screen, is counted once. -/
theorem test_fetch_error :
    let r := { refresh0 with set := { refresh0.set with takeover := true, view := some .live, shown := some 0 } }
    let s := { run0 with
      settings := { st0 with screens := { st0.screens with centre := ⟨16, 16, 24000, 0, ⟨20, 40, 60⟩⟩ } }
      screens := { run0.screens with centre := { run0.screens.centre with refresh := some r } } }
    (nextOf (exec (.fetchError .centre .takeoverCamera) (nextOf (exec (.fetchError .centre .takeoverCamera) s)))).screens.centre.fetchErrors =
      1 := by decide

/-- Section 3.1: the end of the last refresh stops the generator. -/
theorem test_last_refresh :
    (nextOf (exec (.refreshCompleted .centre) { drawing0 with
      runState := .stopping
      screens := { drawing0.screens with centre := { drawing0.screens.centre with
        refresh := some { refresh0 with final := true } } } })).screens.centre.genOn = false := by decide

/-- Section 10.4: a reset keeps memory and puts the part in OFF. -/
theorem test_reset :
    (nextOf (exec .softReset { run0 with mem := [(5, 1)] })).runState = .off ∧
    (nextOf (exec .powerOnReset { run0 with mem := [(5, 1)] })).mem = [(5, 1)] := by decide

/-- Section 10.2: the enable bit. -/
theorem test_irq_enable : (nextOf (exec (.irqEnable true) run0)).regs.irqEnable = true := by decide

/-! ## States that meet the statements' hypotheses

Each theorem is named after its statement; one conjunct for each clause, at the boundary where a clause has one. -/

theorem witness_StepRunsFrontCommand :
    ({ run0 with pending := [.force, .start] } : State).pending = .force :: [.start] ∧ run0.pending = [] ∧
    (run0.screens.centre.refresh = none ∧ run0.screens.left.refresh = none ∧ run0.screens.right.refresh = none ∧
      run0.status.update = none) := by decide

theorem witness_ResetsPutThePartInOff :
    Instr.registerWrite 0x08 4 0x80000000 = .registerWrite 0x08 4 0x80000000 ∧
    (0x80000000 : BitVec 64).getLsbD 31 = true := by decide

/-- A part in STARTING, its book at 0x10000. -/
def starting0 : State :=
  { State.reset with runState := .starting, book := 0x10000, regs := { Regs.reset with run := true, bookAddr := 0x10000 } }

theorem witness_BookAddressIsTakenInOff :
    State.reset.runState = .off ∧ State.reset.regs.run = false ∧ run0.runState ≠ .off := by decide

theorem witness_StartEntersStartingOrIsRefused_start :
    run0.regs.run = true ∧ (State.reset.regs.run = false ∧ State.reset.runState = .off) ∧
    (({ starting0 with regs := Regs.reset } : State).regs.run = false ∧ starting0.runState = .starting) ∧
    (stopping0.regs.run = false ∧ stopping0.runState = .stopping) ∧
    (({ run0 with regs := Regs.reset } : State).regs.run = false ∧ run0.runState = .run) ∧
    (({ standby0 with regs := Regs.reset } : State).regs.run = false ∧ standby0.runState = .standby) := by decide

/-- Values written at offsets of a record, little-endian. -/
def fields (base : Nat) (l : List (Nat × Nat × Nat)) (m : Mem) : Mem :=
  l.foldl (fun m c => Mem.writeLE m (base + c.1) c.2.1 c.2.2) m

/-- A legal settings record (Table 11-2), first half: window, screens and picture, budget, link and reverse. -/
def legalSettingsA : List (Nat × Nat × Nat) :=
  [(0x00, 8, 0x10000), (0x08, 8, 0x200000), (0x10, 2, 640), (0x12, 2, 360), (0x14, 4, 24000), (0x20, 2, 640), (0x22, 2, 360),
   (0x24, 4, 24000), (0x28, 4, 8000), (0x30, 2, 640), (0x32, 2, 360), (0x34, 4, 24000), (0x38, 4, 16000), (0x40, 4, 400000),
   (0x44, 4, 200), (0x48, 1, 255), (0x49, 1, 64), (0x4A, 1, 16), (0x4C, 2, 1000), (0x50, 4, 9600), (0x55, 1, 1),
   (0x56, 2, 100), (0x58, 2, 100), (0x5A, 2, 100), (0x5C, 2, 100), (0x5E, 2, 100), (0x60, 2, 300), (0x62, 2, 800),
   (0x66, 2, 5), (0x68, 2, 50), (0x6A, 2, 200), (0x6C, 2, 3000), (0x6E, 2, 1500)]

/-- The second half: camera, guide and chimes. -/
def legalSettingsB : List (Nat × Nat × Nat) :=
  [(0x70, 2, 320), (0x72, 2, 240), (0x74, 2, 3000), (0x78, 2, 500), (0x7A, 2, 200), (0x80, 8, 0x40000), (0x88, 8, 0x80000),
   (0x90, 8, 0xC0000), (0x98, 8, 0x100000), (0xA5, 1, 4), (0xA6, 1, 20), (0xA7, 1, 30), (0xA8, 2, 150), (0xC0, 1, 255),
   (0xC1, 1, 100), (0xC2, 2, 1000), (0xC5, 1, 5), (0xC6, 1, 5), (0xC8, 2, 150), (0xCA, 2, 900), (0xCC, 2, 60), (0xCE, 2, 20)]

/-- A legal cabin book at 0x10000. -/
def bookMem : Mem := fields 0x10040 legalSettingsB (fields 0x10040 legalSettingsA (Mem.writeLE [] 0x10000 4 1))

/-- The part in STARTING with that book. -/
def booked0 : State := { starting0 with mem := bookMem, bookCopy := bookMem }

theorem witness_BookIsJudgedStepByStep_passes : booked0.judgeStart ⟨[], []⟩ = (.ok, 0) := by decide +kernel

theorem witness_BookIsJudgedStepByStep_inside :
    let st := readSettings booked0.bookCopy booked0.book
    (booked0.book % 4096 = 0 ∧ booked0.book + 16384 ≤ 2 ^ 64) ∧ touches [] booked0.book 4 = false ∧
    Mem.readLE booked0.bookCopy booked0.book 4 = 1 ∧ touches [] (booked0.book + 0x40) 960 = false ∧ st.windowBase % 4096 = 0 ∧
    (st.windowSize % 4096 = 0 ∧ 2 ^ 20 ≤ st.windowSize ∧ st.windowSize ≤ 2 ^ 36 ∧ st.windowBase + st.windowSize ≤ 2 ^ 64) ∧
    (st.windowBase ≤ booked0.book ∧ booked0.book + 16384 ≤ st.windowBase + st.windowSize) := by decide +kernel

/-- Where the book lies: off a page, at the last address it may have, and one page beyond. -/
theorem witness_BookIsJudgedStepByStep_placed :
    ¬ (0x10800 % 4096 = 0) ∧ (2 ^ 64 - 16384) % 4096 = 0 ∧ 2 ^ 64 - 16384 + 16384 ≤ 2 ^ 64 ∧
    ¬ (2 ^ 64 - 12288 + 16384 ≤ 2 ^ 64) := by decide

/-- Reads that fail at the first and last byte of the header and of the settings record, and a header without the 1. -/
theorem witness_BookIsJudgedStepByStep_reads :
    touches [0x10000] 0x10000 4 = true ∧ touches [0x10003] 0x10000 4 = true ∧ touches [0x10040] 0x10040 960 = true ∧
    touches [0x103FF] 0x10040 960 = true ∧ touches [0x10400] 0x10040 960 = false ∧
    Mem.readLE starting0.bookCopy starting0.book 4 ≠ 1 := by decide

/-- The book passes every check; then a read that fails at the last byte of the library, of the guide table's counts, and of
a root's serial. -/
theorem witness_BookIsJudgedStepByStep_later_reads :
    (∀ c ∈ fieldChecks booked0.bookCopy booked0.book (readSettings booked0.bookCopy booked0.book), c.2 = true) ∧
    touches [0x116FF] (booked0.book + 0x500) 4608 = true ∧
    guideReadFails booked0.bookCopy (booked0.book + 0x1700) [0x11703] = true ∧
    booked0.rootReadFails [booked0.rootAddr .chime + 8] = true := by decide +kernel

/-- The first field that fails, one screen step too wide: every check before it (there is none) passes. -/
theorem witness_BookIsJudgedStepByStep_first_failure :
    let m := Mem.writeLE bookMem 0x10050 2 1936
    (fieldChecks m 0x10000 (readSettings m 0x10000)).head? = some (3, false) := by decide +kernel

/-- A window base off a page, a window one page too small, one that leaves the book out, and a screen one step too wide. -/
theorem witness_BookIsJudgedStepByStep_settings :
    (readSettings (Mem.writeLE bookMem 0x10040 8 0x10800) 0x10000).windowBase % 4096 ≠ 0 ∧
    (readSettings (Mem.writeLE bookMem 0x10048 8 0xFF000) 0x10000).windowSize < 2 ^ 20 ∧
    0x10000 < (readSettings (Mem.writeLE bookMem 0x10040 8 0x11000) 0x10000).windowBase ∧
    1920 < (readSettings (Mem.writeLE bookMem 0x10050 2 1936) 0x10000).screens.centre.width := by decide +kernel

theorem witness_StartEntersStartingOrIsRefused_refusal :
    (starting0.judgeStart ⟨[], []⟩ = (.badFormat, 0) ∧ starting0.runState = .starting) ∧ run0.runState ≠ .starting ∧
    booked0.judgeStart ⟨[], []⟩ = (.ok, 0) :=
  ⟨by decide, by decide, witness_BookIsJudgedStepByStep_passes⟩

theorem witness_CompletedStartEntersRun :
    booked0.runState = .starting ∧ (booked0.judgeStart ⟨[], []⟩).1 = .ok ∧ booked0.regs.run = true ∧
    booked0.regs.freeze = false :=
  ⟨rfl, by rw [witness_BookIsJudgedStepByStep_passes], rfl, rfl⟩

/-- Section 8.1: a table of two nodes and two marks, as it is kept, and with one value out of place. -/
def guideMem (l : List (Nat × Nat × Nat)) : Mem :=
  fields 0x11700 l (fields 0x11700 [(0, 2, 2), (2, 2, 2), (8, 2, 0xDCD8), (10, 2, 9000), (0x30, 2, 1), (0x32, 2, 1000),
    (0x41, 1, 2), (0x50, 2, 4095), (0x490, 2, 0xF800)] [])

theorem witness_BookIsJudgedStepByStep_guide :
    [[], [(0, 2, 1)], [(2, 2, 9)], [(8, 2, 0xDCD7)], [(10, 2, 0xDCD8)], [(0x30, 2, 0)], [(0x32, 2, 1)], [(0x41, 1, 3)],
      [(0x52, 2, 4096)], [(0x490, 2, 0xF7FF)], [(0, 2, 18), (2, 2, 9)]].map (fun l =>
        let m := guideMem l
        let n := Mem.readLE m 0x11700 2
        let k := Mem.readLE m 0x11702 2
        judgeGuide n k (readGuideTable m 0x11700 n k)) =
    [.none, .nodeCount, .markCount, .angleRange, .angleOrder, .distanceRange, .distanceOrder, .colour, .pointRange,
      .pointRange, .nodeCount] := by decide +kernel

/-- Section 9.1: pattern 0 with one rest, and with a note out of range; patterns of no note and of nine are unusable. -/
theorem witness_BookIsJudgedStepByStep_patterns :
    [[(0, 1, 1)], [(0, 1, 1), (16, 2, 100)], [(0, 1, 1), (16, 2, 99)], [(0, 1, 1), (16, 2, 8001)], [(0, 1, 1), (19, 1, 2)],
      [(0, 1, 1), (28, 2, 2001)], [(0, 1, 1), (32, 2, 99)], [], [(0, 1, 9)]].map (fun l =>
        (readPattern (fields 0x10500 l []) 0x10500).isSome) =
    [true, true, false, false, false, false, true, false, false] := by decide +kernel

/-- Section 5.6: the takeover cell layer absent, in use, and rejected for a map of 129 columns or another kind. -/
theorem witness_BookIsJudgedStepByStep_cell_layer :
    let cells := fun kind cols => fields 0x10120 [(0, 1, kind), (2, 2, 1), (8, 2, 16), (10, 2, 16), (16, 8, 0x70000),
      (24, 8, 0x71000), (32, 8, 0x72000), (40, 1, cols), (41, 1, 1)] bookMem
    [cells 3 1, Mem.set (cells 3 1) 0x10110 1, Mem.set (cells 3 129) 0x10110 1, Mem.set (cells 0 1) 0x10110 1].map
      (fun m => (readSettings m 0x10000).cellState) = [.absent, .inUse, .rejected, .rejected] := by decide +kernel

/-- A book whose guide table is kept and whose camera is warm. -/
theorem witness_CompletedStartEntersRun_guide_kept :
    let m := Mem.set (fields 0x11700 [(0, 2, 2), (2, 2, 2), (8, 2, 0xDCD8), (10, 2, 9000), (0x30, 2, 1), (0x32, 2, 1000)]
      bookMem) 0x100B7 1
    let s := { booked0 with mem := m, bookCopy := m }
    (s.judgeStart ⟨[], []⟩ = (.ok, 0)) ∧ (readSettings m 0x10000).camera.warm = true ∧
    judgeGuide 2 2 (readGuideTable m 0x11700 2 2) = .none := by decide +kernel

/-- The judgement of the book does not depend on the registers. -/
theorem judgeStart_regs (s : State) (r : Regs) (e : LinkErrs) :
    ({ s with regs := r } : State).judgeStart e = s.judgeStart e := rfl

theorem witness_CompletedStartEntersRun_other_bits :
    let s := { booked0 with regs := { booked0.regs with run := false, freeze := true, standby := true } }
    s.runState = .starting ∧ (s.judgeStart ⟨[], []⟩).1 = .ok :=
  ⟨rfl, by rw [judgeStart_regs, witness_BookIsJudgedStepByStep_passes]⟩

theorem witness_StopEntersStopping :
    State.reset.regs.run = false ∧ (run0.regs.run = true ∧ run0.runState = .run) ∧
    (standby0.regs.run = true ∧ standby0.runState = .standby) ∧ (starting0.regs.run = true ∧ starting0.runState = .starting) ∧
    (({ run0 with runState := .stopping } : State).regs.run = true) ∧ linger0.takeover.state ≠ .normal := by decide

theorem witness_CompletedStopEntersOff :
    (stopping0.runState = .stopping ∧ stopping0.noRefresh = true ∧ stopping0.status.Aligned) ∧
    run0.runState ≠ .stopping ∧ ({ drawing0 with runState := .stopping } : State).noRefresh = false :=
  ⟨⟨by decide, by decide, fun u h => by simp [stopping0, run0, StatusWriter.reset] at h⟩, by decide, by decide⟩

/-- An alert entry that plays, the chime chain's cursor, and a waiting UI entry without it; both held and written so. -/
def queued0 : State :=
  { run0 with
    chime := { run0.chime with alertQ := [{ entry 0x20000 7 .urgent true with plays := 2 }]
                               uiQ := [entry 0x20020 0 .click false] }
    holds := [{ Hold.fresh .chime 0x20000 with cursor := true, client := true, used := true, written := some 0x81 },
              { Hold.fresh .chime 0x20020 with client := true, waiting := true, written := some 2 }] }

theorem witness_ChimesReleased :
    queued0.HoldsWritten ∧ queued0.HoldsPlaced ∧
    (queued0.chime.alertQ ++ queued0.chime.uiQ).map (fun q => (queued0.hold? .chime q.addr).isSome) = [true, true] ∧
    ((queued0.chime.alertQ ++ queued0.chime.uiQ).map (·.addr)).Nodup ∧
    (let t := nextOf (exec .standbyRequest queued0)
     (t.hold? .chime 0x20000).map (fun k => (k.verdict, k.count)) = some (some .released, 2) ∧
       t.hold? .chime 0x20020 = none ∧ Mem.readLE t.mem 0x20020 4 = 14) ∧
    (let t := nextOf (exec .stop queued0)
     t.holds.map (fun k => (k.verdict, k.count)) = [(some .released, 2), (some .released, 0)]) := by
  refine ⟨?_, ?_, by decide +kernel, by decide, by decide +kernel, by decide +kernel⟩
  · show ∀ h ∈ _, _; decide
  · show ∀ h ∈ _, _; decide

theorem witness_StopRetiresEveryHeldEntry :
    stopping0.runState = .stopping ∧ stopping0.noRefresh = true ∧
    { Hold.fresh (.plan .left) 0x20000 with cursor := true, client := true, used := true, count := 3 } ∈ stopping0.holds ∧
    (∀ k ∈ stopping0.holds, k.addr % 16 = 0 ∧ k.addr + 16 ≤ 2 ^ 64 ∧
      (k.addr + 16 ≤ stopping0.book + 0x1C00 ∨ stopping0.book + 0x4000 ≤ k.addr)) ∧
    (∀ k ∈ stopping0.holds, k.addr = 0x20000 →
      k = { Hold.fresh (.plan .left) 0x20000 with cursor := true, client := true, used := true, count := 3 }) := by decide

theorem witness_StandbyRequestIsAnsweredByTakeoverState :
    standby0.regs.standby = true ∧ (State.reset.regs.standby = false ∧ State.reset.runState ≠ .run) ∧
    (active0.regs.standby = false ∧ active0.runState = .run ∧ active0.takeover.state = .active) ∧
    (run0.regs.standby = false ∧ run0.runState = .run ∧ run0.takeover.state ≠ .active) ∧
    (linger0.regs.standby = false ∧ linger0.runState = .run ∧ linger0.takeover.state = .linger) := by decide

theorem witness_StandbyReturnResumesRun :
    run0.regs.standby = false ∧
    (let s := { active0 with regs := { active0.regs with standby := true } }; s.regs.standby = true ∧ s.runState = .run) ∧
    (let s := { starting0 with regs := { starting0.regs with standby := true } };
      s.regs.standby = true ∧ s.runState = .starting) ∧
    (standby0.regs.standby = true ∧ standby0.runState = .standby) := by decide

/-- An update under way, four bytes of its page written. -/
def updating0 : State :=
  { run0 with status := { run0.status with count := 7, update := some ⟨7, List.replicate 9216 0, 4⟩ } }

theorem witness_FreezeIsRequestedClearedAndExpires :
    (let s := { run0 with regs := { run0.regs with freeze := true } }; s.regs.freeze = true ∧ s.runState = .run) ∧
    (State.reset.regs.freeze = false ∧ State.reset.runState = .off) ∧
    (let s := { run0 with status := { run0.status with expired := true } };
      s.regs.freeze = false ∧ s.status.expired = true) ∧
    (run0.regs.freeze = false ∧ run0.runState = .run ∧ run0.status.expired = false ∧ run0.status.update = none) ∧
    (updating0.regs.freeze = false ∧ updating0.status.update.isSome = true) ∧
    (let s := { starting0 with regs := { starting0.regs with freeze := true } };
      s.regs.freeze = true ∧ s.runState = .starting) ∧
    run0.status.freezeOn = false ∧ (nextOf (exec .freezeRequest run0)).status.freezeOn = true := by decide

/-- The last update: made without errors and with one at the first or the last byte of the page, none while FROZEN, and one
under way finished; the entry held lies apart from the page. -/
theorem witness_CompletedStopEntersOff_last_update :
    let page := stopping0.book + 0x1C00
    let frozen := { stopping0 with status := { run0.status with frozen := true } }
    let going := { stopping0 with status := updating0.status }
    (stopping0.status.update = none ∧ stopping0.status.frozen = false ∧ stopping0.book + 0x4000 ≤ 2 ^ 64) ∧
    ([[], [page + 9216], [page], [page + 9215]].map (fun l => touches l page 9216) = [false, false, true, true]) ∧
    (frozen.status.update = none ∧ frozen.status.frozen = true) ∧
    (going.status.update = some ⟨7, List.replicate 9216 0, 4⟩ ∧ touches [page + 4] page 4 = false ∧
      touches [] (page + 4) (9216 - 4) = false ∧ touches [page + 4] page 9216 = true) ∧
    (∀ h ∈ stopping0.holds, h.addr + 8 ≤ page + 0x3C ∨ page + 0x40 ≤ h.addr) ∧
    (nextOf (exec (.stopCompleted ⟨[], [page]⟩) stopping0)).status.pageErrors = 1 :=
  ⟨by decide, by decide, by decide, ⟨rfl, by decide, by decide, by decide⟩, by decide, by decide +kernel⟩

theorem witness_RegisterWritesActAsTheirCommands :
    (0x80000001 : BitVec 64).getLsbD 31 = true ∧ (0x307 : BitVec 64).getLsbD 31 = false ∧
    (¬ ((4 : Nat) = 8 ∧ (0x0C : Nat) = 0) ∧
      ¬ ((4 : Nat) = 4 ∧ ((0x0C : Nat) = 0 ∨ (0x0C : Nat) = 4 ∨ (0x0C : Nat) = 8 ∨ (0x0C : Nat) = 0x10 ∨ (0x0C : Nat) = 0x14))) ∧
    (¬ ((8 : Nat) = 8 ∧ (4 : Nat) = 0) ∧ ¬ ((8 : Nat) = 4)) := by decide

theorem witness_StatusUpdatesBeginAndFail :
    State.reset.status.timerOn = false ∧ (nextOf (exec .freezeRequest run0)).status.frozen = true ∧
    updating0.status.update ≠ none ∧
    (run0.status.timerOn = true ∧ run0.status.frozen = false ∧ run0.status.update = none) := by decide +kernel

theorem witness_StatusUpdateEndsWithTheWholePage :
    run0.status.update = none ∧ updating0.status.update = some ⟨7, List.replicate 9216 0, 4⟩ ∧ 4 % 4 = 0 ∧
    (List.replicate 9216 (0 : Byte)).length = 9216 ∧ updating0.book + 0x4000 ≤ 2 ^ 64 :=
  ⟨rfl, rfl, rfl, List.length_replicate, by decide⟩

theorem witness_StatusWriteErrorFaultsTheChain :
    State.reset.runState = .off ∧ starting0.runState = .starting ∧ run0.runState = .run ∧ standby0.runState = .standby ∧
    stopping0.runState = .stopping := by decide

theorem witness_FrameStartBeginsARefresh :
    standby0.runState ≠ .run ∧ ({ run0 with screens := standby0.screens } : State).screens.left.genOn = false ∧
    (run0.runState = .run ∧ run0.screens.left.genOn = true) ∧
    (active0.runState = .run ∧ active0.screens.centre.genOn = true ∧ active0.takeover.state ≠ .normal) := by decide

/-- Section 2.3: a plan taken at this frame start has been shown once, on the centre in takeover not at all. -/
theorem witness_FrameStartBeginsARefresh_count :
    [{ run0 with mem := planMem }, { active0 with mem := planMem }].map (fun s =>
      (((s.finishRefresh .centre).planAdvance .centre ⟨[], []⟩).hold? (.plan .centre) 0x20000).map (·.client)) =
      [some true, some true] ∧
    [{ run0 with mem := planMem }, { active0 with mem := planMem }].map (fun s =>
      ((nextOf (exec (.frameStart .centre ⟨[], []⟩) s)).hold? (.plan .centre) 0x20000).map (·.count)) = [some 1, some 0] := by
  decide +kernel

/-- A centre refresh of a plan with a CAMERA layer is a camera refresh in INVERT, not in BLANK nor where the layer is shed
or, restricted, covered; a takeover refresh is one without a plan. -/
theorem witness_FrameStartBeginsARefresh_camera :
    let camera := fun (restricted : Bool) => (⟨2, { readLayer [] 0 with kind := .camera, restricted := restricted }⟩ : PlanLayer)
    let shows := fun (m : Mode) (restricted : Bool) (mask : BitVec 6) =>
      ({ run0 with screens := { run0.screens with centre := { Screen.reset with
        plan := some ⟨0x20000, m, 255, [camera restricted], 0⟩, mode := m, adm := { Admission.reset with mask := mask } } } }
        : State).cameraRefresh
    (shows .invert false 0 = true ∧ shows .normal false 3 = true ∧ shows .blank false 0 = false ∧
      shows .normal false 4 = false ∧ shows .normal true 0 = false) ∧
    ({ run0 with screens := { run0.screens with centre := { Screen.reset with showsTakeover := true } } } : State).cameraRefresh =
      true := by decide

theorem witness_AdmissionLawHoldsAfterAFrameStart :
    (run0.runState = .run ∧ (run0.screens.get .right).genOn = true) ∧
    (active0.runState = .run ∧ (active0.screens.get .centre).genOn = true ∧
      (nextOf (exec (.frameStart .centre ⟨[], []⟩) active0)).screens.centre.showsTakeover = true) := by decide +kernel

/-- A layer of a rank, as the back or the front of a plan. -/
def ranked (idx rank : Nat) : PlanLayer :=
  { idx := idx, layer := { readLayer [] 0 with rank := rank } }

theorem witness_LayersAreShedInOrderUntilTheDemandFits :
    (∀ l ∈ [ranked 0 2, ranked 1 0, ranked 2 7, ranked 5 2], l.layer.rank ≤ 7) ∧
    [ranked 0 2, ranked 1 0, ranked 2 7, ranked 5 2].Pairwise (fun a b => a.idx < b.idx) ∧
    (([⟨0, 221184⟩, ⟨2, 27648⟩] : List Shedable).map (·.load)).sum ≤ 373248 ∧
    (shedLoop [⟨0, 221184⟩, ⟨2, 27648⟩] 373248 260864 0).overload = false ∧
    (shedLoop [⟨0, 221184⟩, ⟨2, 27648⟩] 373248 124416 0).overload = false ∧
    (shedLoop [⟨0, 221184⟩, ⟨2, 27648⟩] 373248 124415 0).overload = true := by decide

/-- The last refresh of the centre. -/
def lastRefresh0 : State :=
  { drawing0 with screens := { drawing0.screens with centre := { drawing0.screens.centre with
    refresh := some { refresh0 with final := true } } } }

theorem witness_LastRefreshPutsItsScreenAtRest :
    (∀ r, (drawing0.screens.get .centre).refresh = some r → r.final = false) ∧
    (lastRefresh0.screens.get .centre).refresh = some { refresh0 with final := true } ∧
    roleCount lastRefresh0.camera.roles .shown ≤ 1 :=
  ⟨fun r h => by cases (Option.some.inj h); rfl, rfl, by decide⟩

/-- A picture layer of 16 × 16 pixels at the origin. -/
def picture0 : Layer :=
  { readLayer [] 0 with kind := .picture, format := some .rgb565, w := 16, h := 16, stride := 32, surface := 0x70000,
                        opacity := 255 }

/-- The layer in a composition set. -/
def setPicture0 : SetLayer := { idx := 0, layer := picture0, shed := false, frame := none, scroll := 0 }

/-- A refresh that draws it. -/
def picturing0 : Refresh := { refresh0 with set := { refresh0.set with layers := [setPicture0] } }

/-- The centre drawing it, on a screen of 16 × 16 pixels. -/
def pictured0 : State :=
  { run0 with
    settings := { st0 with screens := { st0.screens with centre := { st0.screens.centre with width := 16, height := 16 } } }
    screens := { run0.screens with centre := { run0.screens.centre with refresh := some picturing0 } } }

theorem witness_FetchErrorMarksAnElementOnce :
    ((pictured0.screens.get .centre).refresh = some picturing0 ∧ picturing0.set.panel = .sending ∧
      picturing0.reads pictured0.settings (pictured0.settings.screens.get .centre) (.layer 0) = true ∧
      FetchElement.layer 0 ∉ picturing0.failed) ∧
    picturing0.reads pictured0.settings (pictured0.settings.screens.get .centre) (.layer 5) = false ∧
    (FetchElement.layer setPicture0.idx ∈ [FetchElement.layer 0] ∧ setPicture0.shed = false ∧
      (setPicture0.layer.restricted && picturing0.cover) = false) := by decide +kernel

/-- A cell layer of one cell that covers the centre's corner. -/
def cells0 : Layer :=
  { picture0 with
    kind := .cells, glyphs := 1
    cells := { (readLayer [] 0).cells with map := 0x70000, sheet := 0x71000, palette := 0x72000, cols := 1, rows := 1 } }

/-- Whether a refresh of one layer on the 16 × 16 centre reads for it. -/
def readsFor (set : CompSet) (l : SetLayer) : Bool :=
  ({ picturing0 with set := { set with layers := [l] } } : Refresh).reads pictured0.settings
    pictured0.settings.screens.centre (.layer 0)

/-- The layer with another kind and column. -/
def kindAt (k : LayerKind) (x : Int) : SetLayer := { setPicture0 with layer := { picture0 with kind := k, x := x } }

/-- A layer is read to the last column of the active area and not beyond it; each kind by what of it lies in memory. -/
theorem witness_FetchErrorMarksAnElementOnce_reads :
    let set := picturing0.set
    let one := some { frame 0 with width := 1, height := 1 }
    ([15, 16, -15, -16].map (fun x => readsFor set (kindAt .picture x)) = [true, false, true, false]) ∧
    ([LayerKind.fill, .film, .camera].map (fun k => readsFor set (kindAt k 0)) = [false, false, false]) ∧
    ([0, -1].map (fun x => readsFor set { kindAt .film x with frame := one }) = [true, false]) ∧
    ([-1, -2].map (fun x => readsFor { set with view := some .lost } (kindAt .camera x)) = [true, false]) ∧
    ([none, some 1].map (fun n => readsFor { set with view := some .live, shown := n } (kindAt .camera 0)) = [false, true]) ∧
    readsFor set { setPicture0 with layer := cells0 } = true ∧
    readsFor set { setPicture0 with layer := { cells0 with x := -16, w := 32 } } = false := by decide +kernel

theorem witness_LayersAreBlendedInOrder :
    setPicture0.shed = false ∧ (setPicture0.layer.restricted && picturing0.cover) = false ∧
    layerPixel 0 0 16 16 16 0 = none ∧ layerPixel 0 0 16 16 15 15 = some (15, 15) ∧
    FetchElement.layer 0 ∉ picturing0.failed ∧ (sourcePixel pictured0 picturing0.set setPicture0 15 15).isSome = true := by
  decide +kernel

/-- Sections 3.2 and 7.5: a NORMAL refresh without a layer is its background, a takeover refresh its own picture. -/
theorem witness_LayersAreBlendedInOrder_composed :
    (refresh0.set.takeover = false ∧ refresh0.set.mode = .normal ∧ refresh0.set.layers = [] ∧
      composePixel pictured0 refresh0 9 9 = ⟨20, 40, 60⟩) ∧
    (let r := { refresh0 with set := { refresh0.set with takeover := true } }
     r.set.takeover = true ∧ composePixel pictured0 r 9 9 = pictured0.settings.camera.blank) := by decide

theorem witness_LayersAreBlendedInOrder_takeover :
    let s := { pictured0 with settings := { pictured0.settings with cellLayer := some cells0, cellState := .inUse } }
    let r := { picturing0 with set := { picturing0.set with takeover := true, view := some .live } }
    (takeoverCell s r 0 0).isSome = true := by decide +kernel

/-- Section 7.5: the takeover picture of 2 × 1 pixels beside and inside its rectangle, with the camera's fetch failed or not. -/
theorem witness_LayersAreBlendedInOrder_takeover_picture :
    let cam := pictured0.settings.camera
    layerPixel cam.originX cam.originY cam.width cam.height 2 0 = none ∧
    layerPixel cam.originX cam.originY cam.width cam.height 1 0 = some (1, 0) ∧
    FetchElement.takeoverCamera ∉ picturing0.failed ∧
    FetchElement.takeoverCamera ∈ ({ picturing0 with failed := [.takeoverCamera] } : Refresh).failed := by decide

/-- Section 8.4: a width of 4 reaches 2 pixels beside a line and beyond its ends; a point alone has a disc of its own. -/
theorem test_pixels_of_a_segment :
    [(⟨5, 2⟩ : Pt), ⟨5, 3⟩, ⟨-2, 0⟩, ⟨-3, 0⟩, ⟨12, 0⟩, ⟨12, 1⟩].map (onSegment 4 ⟨0, 0⟩ ⟨10, 0⟩) =
      [true, false, true, false, true, false] ∧
    onSegment 10 ⟨0, 0⟩ ⟨0, 0⟩ ⟨3, 4⟩ = true ∧ onSegment 9 ⟨0, 0⟩ ⟨0, 0⟩ ⟨3, 4⟩ = false := by decide

theorem witness_CoversAndInversionHideAsStated :
    (let l := { setPicture0 with layer := { picture0 with restricted := true } };
      l.shed = false ∧ l.layer.restricted = true ∧ ({ picturing0 with cover := true } : Refresh).cover = true) ∧
    ({ setPicture0 with shed := true } : SetLayer).shed = true ∧ picturing0.set.takeover = false := by decide

theorem witness_FocusAndInvertFlagChooseTheIndex :
    (15 : Nat) / 16 < cells0.cells.cols ∧
    ¬ ((readCell [] cells0 0 0).blink = true ∧ cells0.blinkOn = true ∧ true = false) ∧
    ((readCell [] cells0 0 0).invert = false ∧ ¬ cells0.focusOn = true) ∧
    (let l := { cells0 with focusOn := true };
      (readCell [] l 0 0).invert = false ∧ l.focusOn = true ∧ l.cells.col0 ≤ 0 ∧ 0 ≤ l.cells.col1 ∧ l.cells.row0 ≤ 0 ∧
        0 ≤ l.cells.row1) ∧
    (readCell [(0x70001, 0x40)] cells0 0 0).invert = true ∧
    (cells0.cells.cols ≤ 16 / 16 ∧ (cellPixel [] cells0 0 true 16 0).isSome = false) ∧
    (let l := { cells0 with blinkOn := true }; (readCell [(0x70001, 0x80)] l 0 0).blink = true ∧ l.blinkOn = true) := by
  decide +kernel

/-- The centre's refresh with its last pixel left to send, and an update under way at its update-end count's word. -/
theorem witness_StepRunsFrontCommand_clock :
    let s := { pictured0 with status := { run0.status with update := some ⟨7, List.replicate 9216 0, 0x3C⟩ } }
    ((s.screens.get .centre).refresh = some picturing0 ∧ picturing0.set.panel = .sending ∧
      255 < (s.settings.screens.get .centre).width * (s.settings.screens.get .centre).height ∧
      ¬ 256 < (s.settings.screens.get .centre).width * (s.settings.screens.get .centre).height) ∧
    (s.status.update.map (·.pos) = some 0x3C ∧ 0x3C % 4 = 0 ∧ 0x3C < 9216 ∧ s.book + 0x4000 ≤ 2 ^ 64) := by decide +kernel

/-- A cell layer whose sheet holds no glyph clamps: once where its mark is clear, in the plan and in takeover, not where it
is set, and not where the layer's fetch has failed. -/
theorem witness_StepRunsFrontCommand_clamped :
    let l := { cells0 with glyphs := 0 }
    let r := { picturing0 with set := { picturing0.set with layers := [{ setPicture0 with layer := l }] } }
    let takeover := { r with set := { r.set with takeover := true } }
    let s := { pictured0 with settings := { pictured0.settings with cellLayer := some l } }
    let count := fun r : Refresh =>
      (({ s with screens := { s.screens with centre := { s.screens.centre with refresh := some r } } } : State).idle).screens.centre.glyphClamps
    (s.newlyClamped r 0 0 = [0] ∧ s.newlyClamped takeover 0 0 = [6] ∧ s.newlyClamped { r with clamped := [0] } 0 0 = []) ∧
    [r, takeover, { r with clamped := [0] }, { r with failed := [.layer 0] }].map count = [1, 1, 0, 0] := by decide +kernel

/-- Table 2-5 and R33's example: 1280 × 720 pixels of XRGB8888 on a screen of period 24,000, and of the other kinds. -/
theorem test_layer_loads :
    kindLoad .picture (some .xrgb8888) 921600 24000 = 221184 ∧ kindLoad .picture (some .rgb565) 921600 24000 = 110592 ∧
    kindLoad .film none 921600 24000 = 221184 ∧ kindLoad .cells none 921600 24000 = 27648 ∧
    kindLoad .camera none 921600 24000 = 110592 ∧ kindLoad .fill none 921600 24000 = 0 := by decide

/-- A polling event by the root link and by the cursor's link, on a FAULTED chain, and where the link cannot be read. -/
theorem witness_WalkHandsOnlyCheckedEntries_poll :
    let cursor := ({ run0 with mem := planMem } : State).setChain (.plan .centre)
      { Chain.reset with state := .running, cursor := some 0x20000 }
    (run0.chain (.plan .centre)).state ≠ .faulted ∧ (run0.chain (.plan .centre)).cursor = none ∧
    touches [0x10407] (run0.rootAddr (.plan .centre)) 8 = true ∧ touches [] (run0.rootAddr (.plan .centre)) 8 = false ∧
    ((cursor.chain (.plan .centre)).state = .running ∧ (cursor.chain (.plan .centre)).cursor = some 0x20000) ∧
    (({ run0 with mem := planMem } : State).pollWalk readPlan (.plan .centre) ⟨[], []⟩).1.map (·.addr) = [0x20000] ∧
    (cursor.pollWalk readPlan (.plan .centre) ⟨[], []⟩).1.map (·.addr) = [] ∧
    ((run0.setChain .chime { Chain.reset with state := .faulted }).chain .chime).state = .faulted := by decide +kernel

theorem witness_WalkHandsOnlyCheckedEntries :
    ((walk readPlan { run0 with mem := planMem } (.plan .centre) ⟨[], []⟩ 16 (some 0x20000)).1.map (·.addr)) = [0x20000] ∧
    0x20008 % 16 ≠ 0 ∧ st0.inWindow 0xFFFE0 32 = true ∧ st0.inWindow 0xFFFF0 32 = false ∧
    stopping0.hold? (.plan .left) 0x20000 ≠ none ∧ run0.hold? (.plan .left) 0x20000 = none ∧
    touches [0x2001F] 0x20000 32 = true ∧ touches [0x20020] 0x20000 32 = false ∧
    Mem.readLE ([] : Mem) (0x20000 + 16) 4 ≠ kindTag (.plan .left) := by decide +kernel

/-- A plan's second layer record at the end of the window, beyond it, and not read; a frame's later part likewise. -/
theorem witness_WalkHandsOnlyCheckedEntries_parts :
    let plan := fun (more a : Nat) (reads : List Nat) =>
      match readPlan { run0 with mem := [(more, 8)] } ⟨reads, []⟩ a with
      | .error f => some (f.cause, f.write)
      | .ok _ => none
    let film := fun (a : Nat) (reads : List Nat) => match readFrameEntry run0 ⟨reads, []⟩ a with
      | .error f => some (f.cause, f.write)
      | .ok _ => none
    (plan 0xFFF90 0xFFF70 [] = none ∧ plan 0xFFFC0 0xFFFA0 [] = some (.address, true) ∧
      plan 0xFFF90 0xFFF70 [0xFFFEF] = some (.readError, true)) ∧
    (film 0xFFFD0 [] = none ∧ film 0xFFFE0 [] = some (.address, true) ∧ film 0xFFFD0 [0xFFFFF] = some (.readError, true)) := by
  decide +kernel

/-- A held entry whose last hold has ended. -/
def free0 : State := { stopping0 with holds := [{ Hold.fresh (.plan .left) 0x20000 with used := true, count := 3 }] }

theorem witness_EntryWordsFollowTheirHolds :
    (free0.hold? (.plan .left) 0x20000).map Hold.isFree = some true ∧
    (stopping0.hold? (.plan .left) 0x20000).map Hold.isFree = some false ∧
    (stopping0.hold? (.plan .left) 0x20000).map (·.written) = some none ∧ 0x20000 % 16 = 0 ∧ 0x20000 + 16 ≤ 2 ^ 64 := by
  decide

/-- R66, R80: a changed serial raises STREAM (bit 3) unless the stream is in PRIMING already. -/
theorem test_restart_raises_stream :
    ((run0.setStreamState .a .playing).restartStream .a).regs.notice = 8 ∧
    ((run0.setStreamState .a .priming).restartStream .a).regs.notice = 0 := by decide

theorem witness_SixteenAdvancesAddOnePeriod : (Stream.reset .left).fine < 16 ∧
    ({ Stream.reset .left with fine := 15 } : Stream).fine < 16 := by decide

/-- A frame that restarts the clock ends a selection; one that is not yet due stops it; one on time is a candidate. -/
theorem witness_SelectionConsumesDueFramesInOrder :
    (select st0 4504 [⟨0x30000, none, frame 3750⟩, ⟨0x30040, none, frame 4504⟩, ⟨0x30080, none, frame 4505⟩] (some 0)).map
      (·.2) = [.candidate, .candidate] ∧
    (select st0 4504 [⟨0x30000, none, frame 3750⟩, ⟨0x30040, none, { frame 9 with restart := true }⟩,
      ⟨0x30080, none, frame 20⟩] (some 0)).map (·.2) = [.candidate, .restart] ∧
    (select st0 4504 [⟨0x30000, none, frame 0⟩, ⟨0x30040, none, { frame 9 with format := none }⟩, ⟨0x30080, none, frame 9⟩,
      ⟨0x300C0, none, frame 9⟩] (some 0)).map (·.2) = [.reject, .reject, .candidate, .reject] := by decide

/-- A frame entry at `a` of a pts and a format code, linked to `next` (Table 11-4). -/
def frameAt (m : Mem) (a next pts format : Nat) : Mem :=
  [(8, 8, next), (16, 4, 2), (21, 1, format), (24, 4, pts), (28, 4, 32), (32, 8, 0x70000), (40, 2, 16), (42, 2, 16)].foldl
    (fun m c => Mem.writeLE m (a + c.1) c.2.1 c.2.2) m

/-- Stream A PLAYING at clock 0, the frame it shows held as the cursor's since four refreshes, and behind it a due frame, one
of no format, a second due frame, and one of the same pts. -/
def selecting0 : State :=
  ({ run0 with
    mem := frameAt (frameAt (frameAt (frameAt (Mem.writeLE filmMem 0x31008 8 0x30000) 0x30000 0x30040 500 0) 0x30040 0x30080 900 7)
      0x30080 0x300C0 1000 0) 0x300C0 1 1000 0
    holds := [{ Hold.fresh (.film .a) 0x31000 with cursor := true, client := true, used := true, count := 4, late := 2 }] }
    |>.setChain (.film .a) { Chain.reset with state := .running, cursor := some 0x31000 }).modStream .a (fun y =>
      { y with state := .playing, req := .run, shown := some { frame 0 with addr := 0x31000 }, lastPts := some 0 })

/-- Sections 4.2 and 4.5: the first due frame is SKIPPED (9) and the invalid one REJECTED (12), each with a report of 0; the
second due frame is shown, 500 ticks late, and the last entry keeps the cursor under its verdict; the frame shown before is
DONE (8) with its figures. -/
theorem witness_SelectionConsumesDueFramesInOrder_words :
    let u := selecting0.pace .a 0 24000 ⟨[], []⟩
    selecting0.CursorsHeld ∧ selecting0.HoldsPlaced ∧ touches [] (selecting0.rootAddr (.film .a) + 12) 12 = false ∧
    (readControls selecting0.mem (selecting0.rootAddr (.film .a))).req = some .run ∧
    [0x30000, 0x30040, 0x30080, 0x300C0, 0x31000].map (fun a => (Mem.readLE u.mem a 4, Mem.readLE u.mem (a + 4) 4)) =
      [(9, 0), (12, 0), (1, 0), (0x81, 0), (8, 0x20004)] ∧
    [0x30000, 0x30040, 0x31000].map (fun a => u.hold? (.film .a) a) = [none, none, none] ∧
    ((u.hold? (.film .a) 0x30080).map (fun k => (k.client, k.used, k.count, k.late)) = some (true, true, 1, 500)) ∧
    ((u.hold? (.film .a) 0x300C0).map (fun k => (k.cursor, k.verdict, k.count)) = some (true, some .rejected, 0)) ∧
    (u.chain (.film .a)).cursor = some 0x300C0 := by
  refine ⟨?_, ?_, by decide +kernel⟩
  · rintro (i | i | _) a h
    · cases i <;> cases h
    · cases i
      · cases h; exact ⟨_, rfl, rfl⟩
      · cases h
    · cases h
  · intro h hh; cases hh with
    | head => decide
    | tail _ hh => cases hh

/-- The same with nothing linked behind it: the frame stays shown and its count grows; asked to stop, it is DONE. -/
theorem witness_SelectionConsumesDueFramesInOrder_stays :
    let dry := { selecting0 with mem := Mem.writeLE selecting0.mem 0x31008 8 1 }
    let stop := { selecting0 with mem := Mem.set selecting0.mem 0x1044C 0 }
    ((dry.pace .a 0 24000 ⟨[], []⟩).hold? (.film .a) 0x31000).map (fun k => (k.client, k.count, k.late)) = some (true, 5, 2) ∧
    (stop.pace .a 0 24000 ⟨[], []⟩).hold? (.film .a) 0x31000 = none ∧
    Mem.readLE (stop.pace .a 0 24000 ⟨[], []⟩).mem 0x31000 4 = 8 := by decide +kernel

/-- Stream A in a state, with a frame shown, its root asking for the requested state `code`, and one frame linked. -/
def pacing0 (code : Byte) (st : StreamState) : State :=
  { run0 with mem := Mem.set filmMem 0x1044C code }.modStream .a
    (fun y => { y with state := st, shown := some (frame 0), lastPts := some 0, balance := -40 })

/-- The same with nothing linked. -/
def dry0 (code : Byte) (st : StreamState) : State :=
  { pacing0 code st with mem := Mem.writeLE (pacing0 code st).mem 0x10440 8 1 }

/-- The same with a FAULTED film chain. -/
def faulted0 : State :=
  (pacing0 1 .playing).setChain (.film .a) { (run0.chain (.film .a)) with state := .faulted }

/-- What a pacing refresh of stream A finds: how its serial check ends, the stream after it, the entries the walk hands, and
whether the chain is FAULTED. -/
def paceFinds (s : State) : Serial × StreamState × Nat × Bool :=
  let q := (s.filmBegun .a 0).filmSerial .a ⟨[], []⟩
  (q.1, (q.2.streams.get .a).state, (q.2.filmPoll .a q.1 ⟨[], []⟩).1.length,
    decide ((q.2.chain (.film .a)).state = .faulted))

/-- The control fields can be read or not, and ask for STOP, RUN or PAUSE. -/
theorem witness_PacingRefreshesMoveTheStream_controls :
    touches [0x10457] (run0.rootAddr (.film .a) + 12) 12 = true ∧ touches [] (run0.rootAddr (.film .a) + 12) 12 = false ∧
    (readControls (pacing0 0 .playing).mem 0x10440).req = some .stop ∧
    (readControls (pacing0 1 .playing).mem 0x10440).req = some .run ∧
    (readControls (pacing0 2 .playing).mem 0x10440).req = some .pause := by decide +kernel

/-- Each stream state with an entry linked, PRIMING and STARVED without one, a FAULTED chain, and a changed serial. -/
theorem witness_PacingRefreshesMoveTheStream_states :
    [{ run0 with mem := filmMem }, dry0 1 .priming, pacing0 1 .playing, pacing0 2 .paused, pacing0 1 .starved, dry0 1 .starved,
      pacing0 1 .ended, faulted0, { pacing0 1 .ended with mem := Mem.set (pacing0 1 .ended).mem 0x10448 9 }].map paceFinds =
    [(.same, .priming, 1, false), (.same, .priming, 0, false), (.same, .playing, 1, false), (.same, .paused, 1, false),
      (.same, .starved, 1, false), (.same, .starved, 0, false), (.same, .ended, 1, false), (.same, .playing, 0, true),
      (.changed, .priming, 1, false)] := by decide +kernel

/-- A part whose receiver has taken `n` bytes. -/
def bytes0 (n : Nat) : State := withMessage run0 (List.replicate n 0x55)

theorem witness_BytesFillTheReceiveBuffer :
    State.reset.link.on = false ∧ ({ run0.link with waitIdle := true } : Receiver).waitIdle = true ∧
    ((bytes0 15).link.on = true ∧ (bytes0 15).link.waitIdle = false ∧ (bytes0 15).link.buf.length < 16 ∧
      (bytes0 15).link.damaged = none) ∧
    ((bytes0 16).link.on = true ∧ 16 ≤ (bytes0 16).link.buf.length) ∧
    ({ run0.link with damaged := some .parity } : Receiver).damaged = some .parity := by decide

theorem witness_FaultyMessagesAreCountedByTheFirstCheck :
    run0.link.buf = [] ∧ ((bytes0 3).link.on = true ∧ (bytes0 3).link.buf ≠ []) ∧
    ((bytes0 3).link.damaged = none ∧ (bytes0 3).link.long = false ∧ kindOf (byteAt (bytes0 3).link.buf 0) = none) ∧
    (kindOf (byteAt [0x22, 0] 0) = some .speed ∧ [0x22, 0].length ≠ messageLen .speed) ∧
    (speedMessage.length = messageLen .speed ∧ byteSum speedMessage = 0 ∧ byteAt speedMessage 1 < 16) ∧
    (byteSum [0x22, 0x05, 0xE2, 0x04, 0x00, 0xF4] ≠ 0) ∧
    (byteSum [0x22, 0x10, 0xE2, 0x04, 0x00, 0xE8] = 0 ∧ 16 ≤ byteAt [0x22, 0x10, 0xE2, 0x04, 0x00, 0xE8] 1) ∧
    (some (BitVec.ofNat 4 (byteAt speedMessage 1)) = some 5) := by decide

/-- A RANGE message of distances 30, 150, no echo and sensor fault; and others for the other zones. -/
def rangeMessage (a b : Byte) : List Byte :=
  [0x23, 0x01, a, 0x00, b, 0x00, 0xFF, 0xFF, 0xFE, 0xFF, (0 - (0x23 + 0x01 + a + b + 0xFF + 0xFF + 0xFE + 0xFF))]

theorem witness_AcceptedMessagesUpdateTheVehicleRecord :
    let ok := fun (s : State) (l : List Byte) (k : Kind) (n : BitVec 4) =>
      (withMessage s l).link.on = true ∧ (withMessage s l).link.buf ≠ [] ∧
        judgeMessage (withMessage s l).link (withMessage s l).vehicle.kinds = .accept k n
    ok run0 speedMessage .speed 5 ∧ ok run0 (rangeMessage 30 150) .range 1 ∧
    ok run0 [0x21, 0x03, 0xB0, 0x04, 0x28] .steer 3 ∧ ok run0 [0x24, 0x00, 0x01, 0xDB] .gear 0 ∧
    ok run0 [0x25, 0x0F, 0xFF, 0xCD] .dim 15 ∧ ok standby0 [0x24, 0x00, 0x01, 0xDB] .gear 0 ∧
    ok standby0 speedMessage .speed 5 := by decide

/-- A LINGER in which the linger-exit speed 1500 ends it and 1499 does not, and the gear code in each state it moves. -/
theorem witness_AcceptedMessagesUpdateTheVehicleRecord_takeover :
    let heard := fun (s : State) (l : List Byte) => nextOf (exec .messageBoundary (withMessage s l))
    let linked := fun s : State => { s with settings := { st0 with reverse := { st0.reverse with source := .link } } }
    let backed := linked { active0 with takeover := { active0.takeover with linkDecision := true } }
    (heard linger0 [0x22, 5, 0xDC, 5, 0, 0xF8]).takeover.state = .normal ∧
    (heard linger0 [0x22, 5, 0xDB, 5, 0, 0xF9]).takeover.state = .linger ∧
    (heard linger0 [0x22, 5, 0xDC, 5, 1, 0xF7]).takeover.state = .linger ∧
    (heard (linked run0) [0x24, 0, 1, 0xDB]).takeover.state = .active ∧
    (heard (linked linger0) [0x24, 0, 1, 0xDB]).takeover.state = .active ∧
    (heard (linked standby0) [0x24, 0, 1, 0xDB]).runState = .run ∧
    (heard backed [0x24, 0, 0, 0xDC]).takeover.state = .linger ∧
    (heard { backed with takeover := { backed.takeover with pendingStandby := true } } [0x24, 0, 0, 0xDC]).runState =
      .standby := by decide

/-- Zones at the boundaries of Dnear 30 and Dfar 150. -/
theorem witness_RangeMessagesSetTheParkingZone :
    let s := withMessage run0 (rangeMessage 30 150)
    (s.link.on = true ∧ s.link.buf ≠ [] ∧ s.runState ≠ .standby ∧
      judgeMessage s.link s.vehicle.kinds = .accept .range 1) ∧
    (nextOf (exec .messageBoundary s)).guide.set.zone = .stop ∧
    (nextOf (exec .messageBoundary (withMessage run0 (rangeMessage 31 150)))).guide.set.zone = .caution ∧
    (nextOf (exec .messageBoundary (withMessage run0 (rangeMessage 149 150)))).guide.set.zone = .caution ∧
    (nextOf (exec .messageBoundary (withMessage run0 (rangeMessage 150 150)))).guide.set.zone = .clear ∧
    (nextOf (exec .messageBoundary (withMessage run0 [0x23, 1, 0xFE, 0xFF, 0xFE, 0xFF, 0xFE, 0xFF, 0xFE, 0xFF, 0xE8]))).guide.set.zone =
      .unknown := by decide

/-- RANGE fresh, its timer running. -/
def freshRange0 : State :=
  { run0 with vehicle := { run0.vehicle with
    kinds := run0.vehicle.kinds.set .range { KindRec.reset with fresh := true, timer := some 300 } } }

theorem witness_StaleKindsAreHandedToTheirReaders :
    (run0.vehicle.kinds.get .range).timer = none ∧ (freshRange0.vehicle.kinds.get .range).timer ≠ none := by decide

theorem witness_LineChangesMoveTheReverseMonitor :
    State.reset.monitor.on = false ∧ (run0.monitor.on = true ∧ run0.monitor.state = .released) ∧
    (let m := { run0.monitor with state := MonitorState.onPending, settle := some 50 };
      m.state = .onPending ∧ m.sinceChange + 4 < st0.reverse.glitch ∧ st0.reverse.glitch ≤ m.sinceChange + 5) ∧
    active0.monitor.state = .engaged ∧
    ({ run0.monitor with state := MonitorState.offPending } : Monitor).state = .offPending := by decide

/-- Reverse about to engage, and about to be released. -/
def onPending (s : State) : State :=
  { s with monitor := { s.monitor with state := .onPending, settle := some 50 }, takeover := { s.takeover with reverse := false } }
def offPending (s : State) : State :=
  { s with monitor := { s.monitor with state := .offPending, settle := some 200 }, takeover := { s.takeover with reverse := true } }

theorem witness_SettledReverseDecisionDrivesTheTakeover :
    run0.monitor.settle = none ∧
    (let s := onPending run0; s.monitor.settle = some 50 ∧ s.runState = .run ∧ s.takeover.state = .normal ∧
      reverseDecision s.settings.reverse.source true s.takeover.linkDecision = true ∧ s.takeover.reverse = false) ∧
    (let s := onPending standby0; s.monitor.settle = some 50 ∧ s.runState = .standby) ∧
    (let s := onPending linger0; s.monitor.settle = some 50 ∧ s.runState = .run ∧ s.takeover.state = .linger) ∧
    (let s := offPending active0; s.monitor.settle = some 200 ∧ s.takeover.state = .active ∧ s.takeover.pendingStandby = false ∧
      s.settings.reverse.linger ≠ 0 ∧ s.forwardFast = false ∧
      reverseDecision s.settings.reverse.source false s.takeover.linkDecision = false ∧ s.takeover.reverse = true) ∧
    (let s := offPending { active0 with takeover := { active0.takeover with pendingStandby := true } };
      s.monitor.settle = some 200 ∧ s.takeover.pendingStandby = true) ∧
    (let s := offPending { active0 with settings := { st0 with reverse := { st0.reverse with linger := 0 } } };
      s.monitor.settle = some 200 ∧ s.settings.reverse.linger = 0) ∧
    (let s := offPending run0; s.monitor.settle = some 200 ∧ s.takeover.state ≠ .active) := by decide

theorem witness_LingerEndsInNormal :
    (run0.takeover.linger = none ∧ ¬ (run0.runState = .run ∧ run0.takeover.state = .linger)) ∧
    (linger0.takeover.linger ≠ none ∧ linger0.runState = .run ∧ linger0.takeover.state = .linger) := by decide

/-- Capture kept by the warm setting, disabled without it, and enabled where it was not; a buffer SHOWN. -/
theorem witness_CaptureJudged :
    let warm := fun s : State => { s with settings := { st0 with camera := { st0.camera with warm := true } } }
    let shown := { linger0 with camera := { linger0.camera with roles := ⟨.capturing, .ready, .shown⟩ } }
    let after := fun s : State => (nextOf (exec .lingerTimerExpiry s)).camera
    ((warm shown).camera.enabled = true ∧ (warm shown).captureAtRest = true ∧ after (warm shown) = shown.camera) ∧
    (shown.camera.enabled = true ∧ shown.captureAtRest = false ∧ (after shown).roles = ⟨.free, .free, .shown⟩ ∧
      roleCount shown.camera.roles .capturing ≤ 1 ∧ roleCount shown.camera.roles .ready ≤ 1 ∧
      roleCount shown.camera.roles .shown ≤ 1) ∧
    (let off := { warm linger0 with camera := { Camera.reset with roles := ⟨.shown, .free, .free⟩ } }
     off.camera.enabled = false ∧ off.captureAtRest = true ∧ (after off).roles = ⟨.shown, .capturing, .free⟩) ∧
    (let s := { active0 with runState := RunState.stopping }; s.freesShown = true ∧ active0.freesShown = false) := by
  decide

/-- A takeover start that finds capture enabled with a buffer SHOWN and the camera not silent, or not enabled. -/
theorem witness_SettledReverseDecisionDrivesTheTakeover_capture :
    let live := { run0 with camera := { active0.camera with roles := ⟨.capturing, .free, .shown⟩, silent := false } }
    (run0.camera.enabled = false ∧ (nextOf (exec .settleTimerExpiry (onPending run0))).takeover.view = some .wait) ∧
    (live.camera.enabled = true ∧ roleCount live.camera.roles .shown ≠ 0 ∧
      (nextOf (exec .settleTimerExpiry (onPending live))).takeover.view = some .live) := by decide

theorem witness_CameraTimersLoseTheView :
    (run0.takeover.startLimit = none ∧ run0.takeover.silence = none) ∧
    (active0.takeover.startLimit ≠ none ∧ active0.takeover.view = some .wait) ∧
    (let t := { active0.takeover with view := some View.live, silence := some 200 };
      t.startLimit ≠ none ∧ t.view ≠ some .wait ∧ t.silence ≠ none ∧ t.view = some .live) ∧
    (let t := { active0.takeover with silence := some 200 }; t.silence ≠ none ∧ t.view ≠ some .live) ∧
    (let p : PerBuffer Role := ⟨.ready, .shown, .capturing⟩; roleCount p .ready ≤ 1 ∧ roleCount p .shown ≤ 1) ∧
    (let p : PerBuffer Role := ⟨.free, .shown, .capturing⟩; roleCount p .ready ≤ 1 ∧ roleCount p .shown ≤ 1) ∧
    active0.camera.enabled = true ∧ active0.camera.roles.get 1 = .free := by decide

theorem witness_CameraMarkersFrameThePixels :
    run0.camera.unit = .idle ∧ active0.camera.unit = .seeking ∧ receiving0.camera.unit = .receiving ∧
    (receiving0.camera.inLine = true ∧ receiving0.camera.pixels ≠ receiving0.settings.camera.width) ∧
    receiving0.settings.camera.height ≤ receiving0.camera.lines := by decide

theorem witness_CameraPixelsFillTheCapturingBuffer :
    active0.camera.unit ≠ .receiving ∧
    (let k := { receiving0.camera with inLine := false }; k.unit = .receiving ∧ k.inLine = false) ∧
    (let k := { receiving0.camera with pixels := 1 };
      k.unit = .receiving ∧ k.inLine = true ∧ k.roles.get 0 = .capturing ∧ k.lines ≤ receiving0.settings.camera.height ∧
        k.pixels < receiving0.settings.camera.width ∧ k.writeStopped = false) ∧
    receiving0.settings.camera.width ≤ 2 ∧ receiving0.settings.camera.height < 2 ∧
    ({ receiving0.camera with writeStopped := true } : Camera).writeStopped = true ∧
    roleCount run0.camera.roles .capturing = 0 := by decide

/-- The frame's last pixel received, without an error. -/
def correct0 : State := { receiving0 with camera := { receiving0.camera with pixels := 2 } }

theorem witness_CameraFrameEndsCorrectOrDiscarded :
    active0.camera.unit ≠ .receiving ∧
    (receiving0.camera.unit = .receiving ∧ receiving0.camera.inLine = true ∧
      receiving0.camera.pixels ≠ receiving0.settings.camera.width) ∧
    (correct0.camera.unit = .receiving ∧ correct0.camera.error = none ∧
      correct0.camera.pixels = correct0.settings.camera.width ∧ ¬ correct0.camera.lines < correct0.settings.camera.height ∧
      roleCount correct0.camera.roles .capturing = 1 ∧ roleCount correct0.camera.roles .ready ≤ 1 ∧
      roleCount correct0.camera.roles .shown ≤ 1) ∧
    (let p : PerBuffer Role := ⟨.shown, .capturing, .ready⟩;
      roleCount p .capturing = 1 ∧ roleCount p .ready = 1 ∧ roleCount p .shown = 1) := by decide

theorem witness_InterpolationStaysInItsBracket :
    (let g := { Guide.reset with table := some markerTable };
      g.table = some markerTable ∧ 2 ≤ markerTable.angles.length ∧ markerTable.angles.Pairwise (· < ·)) ∧
    Guide.reset.table = none ∧ (113 : Nat) ≤ 256 ∧
    (2 ≤ markerTable.dists.length ∧ markerTable.dists.Pairwise (· < ·)) ∧
    (let r := { GuideRec.reset with zone := Zone.caution, dist := some 120 }; r.zone = .caution ∧ r.dist = some 120) ∧
    (let r := { GuideRec.reset with zone := Zone.stop, dist := some 10 }; r.zone = .stop ∧ r.dist = some 10) ∧
    GuideRec.reset.zone = .unknown ∧ GuideRec.reset.dynamicShown = false ∧
    markerTable.statLeft[1]? = some ⟨360, 560⟩ ∧ markerTable.statLeft[2]? = some ⟨400, 470⟩ ∧
    markerTable.statRight[3]? = some ⟨820, 330⟩ := by decide

/-- Section 8.3.1: a point of a dynamic line interpolated at the weight 113, and a table whose lines have it. -/
theorem test_dynamic_point :
    let t := { markerTable with angles := [0, 2700], dynLeft := [[⟨420, 500⟩], [⟨505, 488⟩]], dynRight := [[⟨1, 1⟩], [⟨2, 2⟩]] }
    let g := ({ Guide.reset with table := some t, set := { GuideRec.reset with angleInUse := 1200 } } : Guide).interpolate
    g.set.dynLeft = [⟨458, 495⟩] ∧ g.set.weight = 113 := by decide

/-- An alert with a usable fault pattern and a sensor-fault chime pending. -/
def faultPending0 : State :=
  { active0 with
    settings := { st0 with chime := { st0.chime with faultPattern := 0 } }
    chime := { active0.chime with pending := true, library := [some [⟨440, 0, .square, 255, 0, 480, 0, 0⟩]] } }

theorem witness_ChimeTickServesBothVoices :
    (standby0.runState ≠ .run ∧ standby0.chime.tickOn = false) ∧ (active0.runState = .run ∧ active0.chime.tickOn = true) ∧
    (faultPending0.chime.pending = true ∧ (faultPending0.chime.faultChime? 0).isSome = true) ∧ run0.chime.takeover = .normal ∧
    (let c := { active0.chime with zone := Zone.stop }; c.takeover ≠ .normal ∧ c.zone = .stop) ∧
    (let c := { active0.chime with zone := Zone.caution, cad := CadState.caution, ticksLeft := 2 };
      c.takeover ≠ .normal ∧ c.zone = .caution ∧ c.cad = .caution ∧ 1 < c.ticksLeft) ∧
    (let c := { active0.chime with zone := Zone.caution, cad := CadState.caution, ticksLeft := 1 }; c.ticksLeft ≤ 1) := by
  decide

/-- The alert queue filled with four entries of class URGENT, the first playing, and one pattern usable. -/
def alerts0 : State :=
  { run0 with chime := { run0.chime with
    library := [some [⟨440, 0, .square, 255, 0, 480, 0, 0⟩]]
    alertQ := [entry 1 7 .urgent true, entry 2 0 .urgent false, entry 3 7 .urgent false, entry 4 0 .urgent false] } }

/-- A fault chime pending while an entry plays that cannot be resumed, and while one plays that can. -/
theorem witness_ChimeTickServesBothVoices_pushed :
    let s := fun r : Bool => { alerts0 with
      settings := { st0 with chime := { st0.chime with faultPattern := 0 } }
      chime := { alerts0.chime with pending := true, alertQ := [{ entry 1 7 .urgent true with resumable := r }] } }
    (nextOf (exec (.chimeTick ⟨[], []⟩) (s false))).chime.dropped = 1 ∧
    (nextOf (exec (.chimeTick ⟨[], []⟩) (s true))).chime.alertQ.map (·.playing) = [false] := by decide +kernel

/-- A pending fault chime drops an entry that cannot be resumed and that the cursor holds on, its words written so far. -/
theorem witness_ChimeTickServesBothVoices_dropped :
    let s := { queued0 with
      settings := { st0 with chime := { st0.chime with faultPattern := 0 } }
      chime := { queued0.chime with pending := true, library := alerts0.chime.library } }
    s.HoldsWritten ∧ (s.chime.alertQ.head?.map (fun x => (x.playing, x.resumable)) = some (true, false)) ∧
    (∀ y ∈ s.chime.uiQ, y.addr ≠ 0x20000) ∧
    (((nextOf (exec (.chimeTick ⟨[], []⟩) s)).hold? .chime 0x20000).map
      (fun k => (k.verdict, k.count, k.client, k.written == some k.heldWord)) = some (some .dropped, 2, false, true)) := by
  refine ⟨?_, by decide, by decide, by decide +kernel⟩
  show ∀ h ∈ _, _; decide

/-- A voice that sounds a cadence note in its stages `l`, 100 samples into the first of them. -/
def cadenceVoice (l : List Seg) : Voice :=
  { play := none, note := some ⟨⟨1000, .square, 128, 100⟩, 7, l, 100, 4096⟩, fade := none }

/-- An idle UI voice, and an alert voice without a play, each with an entry waiting; the alert voice hands a note over. -/
theorem witness_ChimeTickServesBothVoices_begins :
    let s := { alerts0 with chime := { alerts0.chime with
      alertQ := [entry 1 7 .urgent false], uiQ := [entry 2 0 .notice false], alert := cadenceVoice [.sustain] } }
    let c := (nextOf (exec (.chimeTick ⟨[], []⟩) s)).chime
    s.chime.ui = Voice.idle ∧ s.chime.alert.play = none ∧
    c.ui.play.map (·.source) = some (.entry 2) ∧ c.alert.play.map (·.source) = some (.entry 1) ∧
    c.alert.fade.map (·.e0) = some 4096 ∧ (c.alertQ ++ c.uiQ).map (·.playing) = [true, true] := by decide +kernel

/-- Section 9.5 with the settings of its example: a beep at a period start, the tone over a note and anew, the beep made of the
tone, and nothing while a release mutes the cadence or between period starts; the duck line is held as the condition ends. -/
theorem witness_ChimeTickServesBothVoices_cadence :
    let at' := fun (z : Zone) (k : CadState) (left : Nat) (v : Voice) =>
      (nextOf (exec (.chimeTick ⟨[], []⟩) { active0 with chime := { active0.chime with
        zone := z, dist := some 90, cad := k, ticksLeft := left, alert := v } })).chime
    let segs := fun c : Chime => c.alert.note.map (·.segs)
    let beep := some [Seg.attack 0 240, .hold 2400, .release 4096 240]
    segs (at' .caution .off 0 Voice.idle) = beep ∧ segs (at' .caution .caution 1 Voice.idle) = beep ∧
    segs (at' .caution .caution 2 Voice.idle) = none ∧
    segs (at' .stop .caution 2 (cadenceVoice [.hold 2400])) = some [.attack 4096 240, .sustain] ∧
    (at' .stop .caution 2 (cadenceVoice [.hold 2400])).alert.note.map (·.phase) = some 7 ∧
    segs (at' .stop .stop 0 Voice.idle) = some [.attack 0 240, .sustain] ∧
    segs (at' .caution .stop 0 (cadenceVoice [.sustain])) = some [.hold 2640, .release 4096 240] ∧
    segs (at' .caution .stop 0 (cadenceVoice [.attack 0 240, .sustain])) =
      some [.attack 0 240, .hold 2500, .release 4096 240] ∧
    segs (at' .stop .off 0 { Voice.idle with fade := some ⟨⟨440, .square, 0, 9⟩, 0, 4096, 0, false, false⟩ }) = none ∧
    (let c := (nextOf (exec (.chimeTick ⟨[], []⟩) { run0 with chime := { run0.chime with duck := true } })).chime
     c.duckCond = false ∧ c.duck = true ∧ c.duckTimer = some 20) := by decide +kernel

theorem witness_ChimeEntriesArePlacedCancelledAndCompleted_placed :
    (alerts0.chime.library.getD 0 none ≠ none ∧ alerts0.chime.library.getD 1 none = none) ∧
    4 ≤ alerts0.chime.alertQ.length ∧ run0.chime.alertQ.length < 4 ∧ 8 ≤ burst0.chime.uiQ.length ∧
    (burst0.chime.uiQ.find? QEntry.waitingClick = some (entry 11 0 .click false) ∧ burst0.chime.uiQ.length ≤ 8) ∧
    (burst0.chime.uiQ.getLast? = some (entry 11 0 .click false) ∧ (entry 11 0 .click false).waitingClick = true) ∧
    (let l := burst0.chime.uiQ.dropLast ++ [entry 8 0 .notice false];
      l.find? QEntry.waitingClick = none ∧ 8 ≤ l.length ∧ l.getLast?.map QEntry.waitingClick = some false) ∧
    (∀ x ∈ burst0.chime.uiQ, x.addr ≠ 20) := by decide

theorem witness_ChimeEntriesArePlacedCancelledAndCompleted_cancelled :
    burst0.ChimesOk ∧ ((burst0.chime.alertQ ++ burst0.chime.uiQ).map (·.addr)).Nodup ∧
    (∀ x ∈ burst0.chime.alertQ.tail ++ burst0.chime.uiQ.tail, x.playing = false) ∧
    (∀ x ∈ burst0.chime.alertQ ++ burst0.chime.uiQ, x.addr ≠ 20) :=
  ⟨⟨by decide, by decide, by decide, by decide, by decide, by decide⟩, by decide, by decide, by decide⟩

/-- Both voices play an entry, the fault chime in the alert voice's place, at the last sample of its last note. -/
def lastSample (src : PlaySource) : Voice :=
  { play := some ⟨src, [], 0⟩, note := some ⟨⟨440, .square, 0, 10⟩, 0, [.silence 1], 0, 0⟩, fade := none }

theorem witness_ChimeEntriesArePlacedCancelledAndCompleted_completed :
    (lastSample .fault).sample.2.2 = true ∧ (lastSample (.entry 1)).sample.2.2 = true ∧ run0.chime.ui.sample.2.2 = false ∧
    (burst0.chime.uiQ.map (·.addr) = [1, 2, 3, 4, 5, 6, 7, 11] ∧ (entry 1 7 .notice true).repeats ≠ 0 ∧
      (entry 1 7 .notice true).repeats ≤ min ((entry 1 7 .notice true).plays + 1) 65535) ∧
    alerts0.chime.alertQ.map (·.addr) = [1, 2, 3, 4] ∧ ({ entry 1 7 .notice true with repeats := 0 } : QEntry).repeats = 0 := by
  decide

/-- Both voices sound a note at a level. -/
def sounding (level : Nat) : State :=
  let v : Voice := { play := some ⟨.fault, [], 0⟩, note := some ⟨⟨440, .square, 0, level⟩, 0, [.sustain], 0, 4096⟩, fade := none }
  { run0 with chime := { run0.chime with alert := v, ui := v } }

theorem witness_SampleEventsMixTheVoices :
    standby0.runState ≠ .run ∧ run0.runState = .run ∧
    (let c := (sounding 10).chime; let sum := c.alert.sample.1 + c.ui.sample.1; -32768 ≤ sum ∧ sum ≤ 32767) ∧
    (let c := (sounding 255).chime; 32767 < c.alert.sample.1 + c.ui.sample.1) ∧ run0.chime.duckTimer = none ∧
    ({ run0.chime with duckTimer := some 20 } : Chime).duckTimer ≠ none := by decide +kernel

theorem witness_CopiesAndNoticesChangeOnlyAsStated :
    Instr.mayReset .force = false ∧ exec .force run0 = .next (nextOf (exec .force run0)) ∧ Instr.mayReset .start = false ∧
    (run0.raise .forced).regs.notice.getLsbD 12 = true := ⟨rfl, rfl, rfl, by decide⟩

theorem witness_NoMemoryIsWrittenInOffAndStarting :
    starting0.runState = .starting ∧ starting0.TakeoverOk ∧ starting0.CaptureOk ∧ starting0.StatusOk ∧
    (∀ e, Instr.force ≠ .startCompleted e) ∧ exec .force starting0 = .next (nextOf (exec .force starting0)) :=
  ⟨rfl, ⟨fun _ => rfl, by decide, by decide⟩,
    ⟨by decide, by decide, rfl, by decide, by decide, by decide, rfl, rfl, by decide, by decide⟩,
    ⟨rfl, fun _ => ⟨rfl, rfl, rfl⟩, (fun u h => by cases h), by decide, rfl, by decide, by decide⟩, (fun _ => nofun), rfl⟩

/-- A start refused for the last field of Table 11-2, and the words of Table 11-10 worked out by hand. -/
theorem witness_BookAddressIsTakenInOff_words :
    let refused := { State.reset with regs := { Regs.reset with startResult := .badSettings, startDetail := 74 } }
    refused.RegsOk ∧ refused.readReg 0x0C 4 = 0x4A0300 ∧ active0.readReg 0x0C 4 = 0x52 ∧
    ({ run0 with regs := { run0.regs with freeze := true, irqEnable := true } } : State).readReg 0x08 4 = 0xD :=
  ⟨⟨by decide, by decide, fun _ => rfl, by decide⟩, by decide, by decide, by decide⟩

/-- Table 11-9: the header's count and STATE copy, the governor's budget, stream B's pacing screen. -/
theorem test_page_offsets :
    let page := run0.pageImage 7
    pageWord page 0 = 7 ∧ pageWord page 8 = 2 ∧ pageWord page 0x1C0 = 800000 ∧ page.getD 0x2A2 0 = 2 := by decide +kernel

/-- A frame start that takes a plan, the screen's reference on it, and one whose admission sets the overload flag. -/
theorem witness_FrameStartBeginsARefresh_references :
    let start := fun s : State => nextOf (exec (.frameStart .centre ⟨[], []⟩) s)
    let s := start { run0 with mem := planMem }
    let full := start { active0 with settings := { st0 with budget := 0 } }
    s.screens.centre.plan.map (·.addr) = some 0x20000 ∧
    (s.hold? (.plan .centre) 0x20000).map (·.refs.centre) = some true ∧
    ((start s).hold? (.plan .centre) 0x20000).isSome = true ∧
    (full.screens.centre.adm.overload = true ∧ full.screens.centre.overloads = 1 ∧ active0.screens.centre.adm.overload = false) := by
  decide +kernel

/-- A refresh without a plan begins with its panel IDLE; one that shows the takeover picture does not. -/
theorem witness_CoversAndInversionHideAsStated_idle :
    let start := fun s : State => (nextOf (exec (.frameStart .centre ⟨[], []⟩) s)).screens.centre
    run0.runState = .run ∧ (run0.screens.get .centre).genOn = true ∧ (start run0).plan = none ∧
    (start run0).refresh.map (·.set.panel) = some .idle ∧ (start active0).refresh.map (·.set.panel) = some .sending := by
  decide +kernel

/-- Sections 5.2 to 5.4: a cell of palette 1 whose glyph 1 has index 2 at its first pixel and 3 at its second, inverted, blanked,
beyond the map, and with glyph 1 beyond the sheet, whose glyph 0 has index 0. -/
theorem test_cell_sources :
    let mem := fun flags : Nat => [(0x70000, 1, 1), (0x70001, 1, 4 + flags), (0x71080, 1, 0x32), (0x72040, 4, 0xFF000000),
      (0x72048, 4, 0xFF000002), (0x7204C, 4, 0xFF000003), (0x72074, 4, 0xFF00000D)].foldl
        (fun (m : Mem) (c : Nat × Nat × Nat) => Mem.writeLE m c.1 c.2.1 c.2.2) []
    let blue := fun (flags glyphs i : Nat) =>
      (sourcePixel { pictured0 with mem := mem flags } { picturing0.set with blinkOn := false }
        { setPicture0 with layer := { cells0 with glyphs := glyphs, blinkOn := true } } i 0).map (·.b)
    [blue 0 2 0, blue 0 2 1, blue 0x40 2 0, blue 0x80 2 0, blue 0xC0 2 0, blue 0 2 16, blue 0 1 0] =
      [some 2, some 3, some 13, some 0, some 0, none, some 0] := by decide +kernel

/-- A source of each kind, a frame with a pixel inside and outside it, and the camera picture in each view status. -/
theorem witness_LayersAreBlendedInOrder_sources :
    let film := { setPicture0 with layer := { picture0 with kind := LayerKind.film }, frame := some (frame 0) }
    let camera := { picture0 with kind := LayerKind.camera }
    picture0.kind = .picture ∧ picture0.format = some .rgb565 ∧ cells0.kind = .cells ∧
    (film.layer.kind = .film ∧ (frame 0).format = some .rgb565 ∧ 15 < (frame 0).width ∧ 15 < (frame 0).height ∧
      (frame 0).width ≤ 16) ∧ setPicture0.frame = none ∧
    (camera.kind = .camera ∧ 1 < pictured0.settings.camera.width ∧ 0 < pictured0.settings.camera.height ∧
      pictured0.settings.camera.width ≤ 2) ∧
    [{ picturing0.set with view := some View.live, shown := some 0 }, { picturing0.set with view := some View.wait },
      { picturing0.set with view := some View.lost }].map (·.view) = [some .live, some .wait, some .lost] ∧
    (let s := { pictured0 with guide := { Guide.reset with state := .inUse, table := some markerTable } }
     s.guide.state = .inUse ∧ s.guide.table = some markerTable) ∧
    (let r := { GuideRec.reset with markerShown := true, markerRight := ⟨5, 0⟩, zone := Zone.stop }
     r.markerShown = true ∧ onSegment 8 r.markerLeft r.markerRight ⟨5, 4⟩ = true ∧
       onSegment 8 r.markerLeft r.markerRight ⟨5, 5⟩ = false ∧ r.zone = .stop) := by decide +kernel

/-- An entry of another kind, whose FAULT is written or whose two writes fail, and one that cannot be read. -/
theorem witness_WalkHandsOnlyCheckedEntries_fault :
    let s := { run0 with mem := Mem.set planMem 0x20010 2 }
    let named := fun e : LinkErrs => match (walk readPlan s (.plan .centre) e 4 (some 0x20000)).2 with
      | .fault a f => some (a, f.cause, f.write)
      | _ => none
    let word := fun (e : LinkErrs) => Mem.readLE (s.pollWalk readPlan (.plan .centre) e).2.2.mem 0x20000 4
    named ⟨[], []⟩ = some (0x20000, .kind, true) ∧ named ⟨[0x2001F], []⟩ = some (0x20000, .readError, true) ∧
    touches [0x20003, 0x20007] 0x20000 4 = true ∧ touches [0x20003, 0x20007] 0x20004 4 = true ∧
    word ⟨[], []⟩ = 13 ∧ 0x20000 + 8 ≤ 2 ^ 64 := by decide +kernel

/-- The root's serial unreadable at its last byte, the same, and changed, the cursor's entry free or held by its client. -/
theorem witness_WalkHandsOnlyCheckedEntries_serial :
    let chain := { Chain.reset with state := .running, cursor := some 0x20000 }
    let held := fun client : Bool => { ({ run0 with mem := Mem.set planMem 0x10408 9 } : State).setChain (.plan .centre) chain
      with holds := [{ Hold.fresh (.plan .centre) 0x20000 with cursor := true, client := client, used := true }] }
    let check := fun s : State => s.checkSerial (.plan .centre) ⟨[], []⟩
    touches [0x1040B] (run0.rootAddr (.plan .centre) + 8) 4 = true ∧ (check run0).1 = .same ∧ (check (held true)).1 = .changed ∧
    ((held true).hold? (.plan .centre) 0x20000).map (fun h => ({ h with cursor := false } : Hold).isFree) = some false ∧
    ((held false).hold? (.plan .centre) 0x20000).map (fun h => ({ h with cursor := false } : Hold).isFree) = some true ∧
    Mem.readLE (check (held false)).2.mem 0x20000 4 = 8 := by decide +kernel

/-- A takeover with a usable fault pattern and a zone that is known. -/
def parking0 : State :=
  { faultPending0 with chime := { faultPending0.chime with pending := false, zone := .clear } }

/-- The sensor-fault chime becomes pending at a RANGE message of four sensor faults, at a stale RANGE, and at a takeover
start with the zone UNKNOWN. -/
theorem witness_sensor_fault_chime_pending :
    let usable := fun s : State => { s with settings := faultPending0.settings,
                                            chime := { s.chime with library := faultPending0.chime.library } }
    (nextOf (exec .messageBoundary
      (withMessage parking0 [0x23, 1, 0xFE, 0xFF, 0xFE, 0xFF, 0xFE, 0xFF, 0xFE, 0xFF, 0xE8]))).chime.pending = true ∧
    (nextOf (exec (.freshnessTimerExpiry .range) { parking0 with vehicle := freshRange0.vehicle })).chime.pending = true ∧
    (nextOf (exec .settleTimerExpiry (nextOf (exec (.reverseLineActive 0) (usable run0))))).chime.pending = true ∧
    (nextOf (exec .settleTimerExpiry (nextOf (exec (.reverseLineActive 0) run0)))).chime.pending = false := by decide

/-- Each stage of a note, before its last sample and at it, and a handover release at its last two. -/
theorem witness_SampleEventsMixTheVoices_notes :
    let tone : Tone := ⟨440, .triangle, 0, 255⟩
    let after := fun (g : Seg) (pos : Nat) => ((⟨tone, 0, [g, .silence 48], pos, 0⟩ : Note).sample.2.segs.length)
    [after (.attack 0 48) 46, after (.attack 0 48) 47, after (.hold 2) 0, after (.hold 2) 1, after .sustain 0,
      after (.release 4096 48) 46, after (.release 4096 48) 47, after (.silence 2) 0, after (.silence 2) 1] =
      [2, 1, 2, 1, 2, 2, 1, 2, 1] ∧
    ((⟨tone, 0, 4096, 238, false, false⟩ : Fade).sample.2).isSome = true ∧
    ((⟨tone, 0, 4096, 239, false, false⟩ : Fade).sample.2).isSome = false ∧
    Voice.idle.note = none ∧ Voice.idle.fade = none := by decide

/-- The last sample of a note: the next note of the pattern that lasts follows, or the play is complete; a beep ends. -/
theorem witness_SampleEventsMixTheVoices_next :
    let lasts : PatternNote := ⟨440, 0, .square, 9, 0, 1, 0, 0⟩
    let short := { lasts with hold := 0 }
    let v := fun (p : Option Play) => ({ play := p, note := some ⟨⟨440, .square, 0, 9⟩, 0, [.hold 1], 0, 0⟩, fade := none } : Voice)
    ((startNote short).segs = [] ∧ (startNote lasts).segs ≠ []) ∧
    ((v (some ⟨.fault, [lasts, short, lasts], 0⟩)).sample.2.1.play.map (·.idx) = some 2) ∧
    (v (some ⟨.fault, [lasts, short], 0⟩)).sample.2.2 = true ∧ (v none).sample.2.1.note = none := by decide

/-! ## States that meet the invariants, from which a step goes on -/

/-- A step from `s` answers a next state. -/
def goesOn (s : State) : Prop := ∃ t, step s = .next t

/-- A part in takeover with a command waiting. -/
def waiting0 : State := { active0 with pending := [.force] }

theorem witness_goes_on : goesOn waiting0 := ⟨_, rfl⟩

theorem witness_StepKeepsMemoryCanonical : Mem.wf planMem = true ∧ planMem ≠ [] := by decide +kernel

theorem witness_CursorsHeld :
    let h := { Hold.fresh (.plan .left) 0x20000 with cursor := true }
    let t := { run0.setChain (.plan .left) { run0.chain (.plan .left) with state := .running, cursor := some 0x20000 } with
      holds := [h] }
    t.CursorsHeld ∧ (t.chain (.plan .left)).cursor = some 0x20000 := by
  refine ⟨?_, by decide⟩
  rintro (i | i | _) a h
  · cases i
    · cases h
    · cases h; exact ⟨_, rfl, rfl⟩
    · cases h
  · cases i <;> cases h
  · cases h

theorem witness_HoldsWritten : queued0.HoldsWritten ∧ goesOn { queued0 with pending := [.force] } :=
  ⟨witness_ChimesReleased.1, _, rfl⟩

theorem witness_ChainsOk : waiting0.ChainsOk := by
  rintro ((_ | _ | _) | (_ | _) | _) <;> exact ⟨fun _ => rfl, nofun⟩

theorem witness_StreamsOk : waiting0.StreamsOk := by
  rintro (_ | _) <;>
    exact ⟨by decide, by decide, by decide, by decide, fun _ => ⟨rfl, rfl, rfl⟩, (fun f h => by cases h), fun _ => rfl⟩

theorem witness_VehicleOk : waiting0.VehicleOk :=
  ⟨by decide, fun _ => ⟨rfl, rfl⟩, nofun, by decide, by decide, by decide, fun h => absurd rfl h, by decide,
    (fun k _ => by cases k <;> rfl), fun _ => rfl⟩

theorem witness_ReverseOk : waiting0.ReverseOk := rfl

theorem witness_HandedOk : waiting0.HandedOk := ⟨rfl, rfl, rfl⟩

theorem witness_TakeoverOk : waiting0.TakeoverOk := ⟨by decide, nofun, by decide⟩

theorem witness_CaptureOk : waiting0.CaptureOk :=
  ⟨by decide, by decide, rfl, by decide, by decide, by decide, rfl, rfl, by decide, by decide⟩

/-- The centre draws the host's plan under its cover mark, the motion state UNKNOWN. -/
theorem witness_CoverOk :
    let s := { drawing0 with pending := [.force], screens := { drawing0.screens with centre := { drawing0.screens.centre with
      refresh := some { refresh0 with cover := true } } } }
    s.CoverOk ∧ s.covered = true ∧ goesOn s := by
  refine ⟨fun r h _ _ => ?_, by decide, _, rfl⟩
  cases Option.some.inj h
  rfl

/-- The left screen's plan has shed its one layer of rank 2. -/
theorem witness_ShedOk :
    let sc := { Screen.reset with plan := some ⟨0x20000, .normal, 255, [ranked 0 2], 0⟩, adm := ⟨0, 1, false⟩ }
    let s := { run0 with pending := [.force], screens := { run0.screens with left := sc } }
    s.ShedOk ∧ goesOn s := by
  refine ⟨?_, _, rfl⟩
  rintro (_ | _ | _)
  · exact ⟨fun _ => rfl, fun n h => by simp [run0, PerScreen.get, Screen.reset, Admission.reset] at h⟩
  · refine ⟨nofun, fun n h => ⟨ranked 0 2, by decide, ?_, by decide⟩⟩
    rcases n with _ | n
    · rfl
    · simp [PerScreen.get, BitVec.getLsbD, Nat.testBit_succ] at h
  · exact ⟨fun _ => rfl, fun n h => by simp [run0, PerScreen.get, Screen.reset, Admission.reset] at h⟩

theorem witness_ChimesOk : burst0.ChimesOk :=
  ⟨by decide, by decide, by decide, by decide, by decide, by decide⟩

theorem witness_DuckOk :
    ({ waiting0 with chime := { waiting0.chime with duck := true, duckTimer := some 20 } } : State).DuckOk :=
  ⟨rfl, nofun⟩

theorem witness_StatusOk : updating0.StatusOk :=
  ⟨rfl, nofun, (fun u h => by cases Option.some.inj h; exact ⟨rfl, rfl, by decide, by decide⟩), nofun, rfl, nofun, nofun⟩

theorem witness_RegsOk : waiting0.RegsOk := ⟨by decide, by decide, nofun, by decide⟩

/-- The settings of the tests with screens of 640 × 360 pixels and a camera of 320 × 240. -/
def legal0 : Settings :=
  { st0 with
    windowBase := 0x10000, windowSize := 0x200000
    screens := ⟨⟨640, 360, 24000, 0, ⟨20, 40, 60⟩⟩, ⟨640, 360, 24000, 8000, ⟨20, 40, 60⟩⟩, ⟨640, 360, 24000, 16000, ⟨20, 40, 60⟩⟩⟩
    camera := { st0.camera with width := 320, height := 240, buffers := ⟨0x40000, 0x80000, 0xC0000⟩, fallback := 0x100000 } }

theorem witness_SettingsOk :
    let s := { run0 with settings := legal0, pending := [.force], holds := [Hold.fresh .chime 0x20000] }
    s.SettingsOk ∧ s.HoldsPlaced ∧ s.runState.active = true ∧ goesOn s := by
  refine ⟨fun _ => ⟨by decide, by decide, by decide, ?_, by decide, by decide, by decide, by decide, by decide, by decide,
    by decide, ?_, by decide, by decide, by decide, by decide, by decide, by decide, ?_, ?_, by decide, by decide, by decide,
    by decide, by decide, by decide, by decide, by decide, by decide⟩, ?_, rfl, _, rfl⟩
  · rintro (_ | _ | _) <;> exact ⟨by decide, by decide, by decide, by decide⟩
  · rintro (_ | _ | _ | _ | _) <;> decide
  · intro n
    rcases n with _ | _ | n
    · decide
    · decide
    · exact (by decide : legal0.inWindow 0xC0000 (320 * 240 * 2) = true ∧ 0xC0000 % 16 = 0)
  · intro m n hm hn
    rcases n with _ | _ | _ | n
    · omega
    · obtain rfl : m = 0 := by omega
      intro x h1 h2 h3
      simp [legal0, st0, PerBuffer.get] at h1 h2 h3
      omega
    · rcases m with _ | _ | m
      · intro x h1 h2 h3
        simp [legal0, st0, PerBuffer.get] at h1 h2 h3
        omega
      · intro x h1 h2 h3
        simp [legal0, st0, PerBuffer.get] at h1 h2 h3
        omega
      · omega
    · omega
  · intro h hh; cases hh with
    | head => decide
    | tail _ hh => cases hh

end Sys2Proof.Machine.Tests
end

