-- ==== Sys2Proof/Proofs/MenuCellPlanes.lean ====
section
/-! Which colour index a CELLS layer draws (R89, section 5.4): the focus, the index of a glyph's colour after the INVERT
flag and the focus, the value a cell hands to the pipe, and the pipe's own inversion. -/

namespace Sys2Proof.Machine

/-- R89: enabled, and within the rectangle's four bounds. -/
theorem inFocus_iff (l : Layer) (c m : Nat) :
    inFocus l c m = true ↔
      l.focusOn = true ∧ l.cells.col0 ≤ c ∧ c ≤ l.cells.col1 ∧ l.cells.row0 ≤ m ∧ m ≤ l.cells.row1 := by
  simp [inFocus, and_assoc]

/-- A cell is blanked while it blinks, its layer blinks and the phase latched is OFF. -/
def CellRec.blanked (cell : CellRec) (l : Layer) (phaseOn : Bool) : Bool :=
  cell.blink && l.blinkOn && !phaseOn

theorem CellRec.blanked_iff (cell : CellRec) (l : Layer) (phaseOn : Bool) :
    cell.blanked l phaseOn = true ↔ cell.blink = true ∧ l.blinkOn = true ∧ phaseOn = false := by
  simp [CellRec.blanked, and_assoc]

@[simp] theorem drawnIndex_blanked (inv focus : Bool) (i : Nat) : drawnIndex true inv focus i = 0 := rfl

/-- R89: one inversion alone turns the index round. -/
theorem drawnIndex_of_one_inversion {inv focus : Bool} (i : Nat)
    (one : inv = true ∧ ¬ focus = true ∨ inv = false ∧ focus = true) : drawnIndex false inv focus i = 15 - i := by
  obtain ⟨rfl, hf⟩ | ⟨rfl, rfl⟩ := one
  · rw [eq_false_of_ne_true hf]; rfl
  · rfl

/-- R89: two inversions cancel, and none leaves the index as it is. -/
theorem drawnIndex_of_both_or_neither {inv focus : Bool} (i : Nat)
    (same : inv = true ∧ focus = true ∨ inv = false ∧ ¬ focus = true) : drawnIndex false inv focus i = i := by
  obtain ⟨rfl, rfl⟩ | ⟨rfl, hf⟩ := same
  · rfl
  · rw [eq_false_of_ne_true hf]; rfl

/-- R88: beyond the map's columns nothing is drawn. -/
theorem cellPixel_beyond_map (mem : Mem) (l : Layer) (scroll : Nat) (phaseOn : Bool) {i : Nat} (j : Nat)
    (beyond : l.cells.cols ≤ i / 16) : cellPixel mem l scroll phaseOn i j = none := by
  simp only [cellPixel, if_pos beyond]

/-- R92: within the map's columns the value is the entry of the cell's own palette at the index drawn. -/
theorem cellPixel_value_within_map (mem : Mem) (l : Layer) (scroll : Nat) (phaseOn : Bool) {i : Nat} (j : Nat)
    (within : i / 16 < l.cells.cols) :
    let m := (j + scroll) / 16 % l.cells.rows
    let cell := readCell mem l (i / 16) m
    let g := glyphIndex mem l (if l.glyphs ≤ cell.glyph then 0 else cell.glyph) ((j + scroll) % 16) (i % 16)
    (cellPixel mem l scroll phaseOn i j).map (·.1) = some (paletteEntry mem l cell.palette
      (drawnIndex (cell.blanked l phaseOn) cell.invert (inFocus l (i / 16) m) g)) := by
  simp only [cellPixel, if_neg (Nat.not_le.mpr within), Option.map_some, CellRec.blanked, decide_eq_true_eq]

/-- R55: in INVERT mode the pipe inverts the pixel after all layers are blended. -/
theorem composePixel_of_invert_mode (s : State) (r : Refresh) (col row : Nat) (plain : r.set.takeover = false)
    (mode : r.set.mode = .invert) :
    composePixel s r col row = Rgb.invert (r.set.layers.foldl (drawLayer s r col row) r.set.background) := by
  simp [composePixel, plain, mode]

/-- Settles O28: the value of a cell's pixel is a palette entry at the index drawn, and that index is 0 in a blanked cell
and otherwise depends only on how many of the INVERT flag and the focus hold. -/
theorem focusAndInvertFlagChooseTheIndex : Obligations.FocusAndInvertFlagChooseTheIndex := by
  intro mem l scroll i j phaseOn c m cell focus g blanked
  have focus_iff : inFocus l c m = true ↔ focus := inFocus_iff l c m
  have blanked_iff : cell.blanked l phaseOn = true ↔ blanked := cell.blanked_iff l phaseOn
  have value : c < l.cells.cols → (cellPixel mem l scroll phaseOn i j).map (·.1) = some (paletteEntry mem l cell.palette
      (drawnIndex (cell.blanked l phaseOn) cell.invert (inFocus l c m) g)) :=
    cellPixel_value_within_map mem l scroll phaseOn j
  refine ⟨cellPixel_beyond_map mem l scroll phaseOn j, fun within hb => ?_, fun within hb => ⟨focus_iff, ?_, ?_⟩,
    composePixel_of_invert_mode⟩
  · rw [value within, blanked_iff.mpr hb, drawnIndex_blanked]
  all_goals
    intro inversions
    rw [← blanked_iff, Bool.not_eq_true] at hb
    rw [← focus_iff] at inversions
    rw [value within, hb]
  · rw [drawnIndex_of_one_inversion g inversions]
  · rw [drawnIndex_of_both_or_neither g inversions]

end Sys2Proof.Machine
end

