-- ==== Sys2Proof/Proofs/GuideLinesAndParkingZones.lean ====
section
/-! The parking zone record (R139, section 8.5): the nearest distance, the zone's first clause that applies, and the
record an accepted RANGE message leaves. -/

namespace Sys2Proof.Machine

/-! ## The nearest distance -/

/-- A distance counts for `nearest` unless it is one of the two values that are none. -/
theorem mem_distances_iff {rs : List Nat} {v : Nat} :
    v ∈ rs.filter (fun v => v != noEcho && v != sensorFault) ↔ v ∈ rs ∧ v ≠ noEcho ∧ v ≠ sensorFault := by
  simp

theorem nearest_eq_some_iff {rs : List Nat} {v : Nat} :
    nearest rs = some v ↔
      v ∈ rs ∧ v ≠ noEcho ∧ v ≠ sensorFault ∧ ∀ w ∈ rs, w ≠ noEcho → w ≠ sensorFault → v ≤ w := by
  simp only [nearest, List.min?_eq_some_iff, mem_distances_iff, and_assoc, and_imp]

theorem nearest_eq_none_iff {rs : List Nat} : nearest rs = none ↔ ∀ w ∈ rs, w = noEcho ∨ w = sensorFault := by
  rw [nearest, List.min?_eq_none_iff, List.eq_nil_iff_forall_not_mem]
  refine forall_congr' fun w => ?_
  rw [mem_distances_iff, not_and, ← Decidable.or_iff_not_not_and_not]

/-! ## The zone, clause by clause -/

section
variable {st : GuideSettings} {rs : List Nat} {d : Nat}

theorem zoneOf_of_all_faults (faults : ∀ w ∈ rs, w = sensorFault) : zoneOf st rs = .unknown := by
  rw [zoneOf, if_pos (by simpa using faults)]

/-- Past the clause of four sensor faults the zone is judged from the nearest distance alone. -/
theorem zoneOf_of_not_all_faults (heard : ¬ ∀ w ∈ rs, w = sensorFault) :
    zoneOf st rs = (nearest rs).elim .clear
      (fun d => if st.dFar ≤ d then .clear else if d ≤ st.dNear then .stop else .caution) := by
  rw [zoneOf, if_neg (by simpa using heard)]
  cases nearest rs <;> rfl

theorem zoneOf_of_no_distance (heard : ¬ ∀ w ∈ rs, w = sensorFault) (silent : nearest rs = none) :
    zoneOf st rs = .clear := by
  rw [zoneOf_of_not_all_faults heard, silent, Option.elim_none]

/-- A nearest distance is no sensor fault, so the first clause does not apply. -/
theorem zoneOf_of_nearest (near : nearest rs = some d) :
    zoneOf st rs = if st.dFar ≤ d then .clear else if d ≤ st.dNear then .stop else .caution := by
  obtain ⟨mem, -, no_fault, -⟩ := nearest_eq_some_iff.mp near
  rw [zoneOf_of_not_all_faults (fun faults => no_fault (faults d mem)), near, Option.elim_some]

end

/-! ## The record an accepted message leaves -/

/-- Table 6-3: the least distance kept is 1. -/
theorem rangeValues_eq (l : List Byte) :
    rangeValues l = [2, 4, 6, 8].map (fun n => if halfAt l n = 0 then 1 else halfAt l n) := by
  refine List.map_congr_left fun n _ => ?_
  split <;> omega

@[simp] theorem State.setZone_guide (s : State) (z : Zone) (d : Option Nat) :
    (s.setZone z d).guide = s.guide.setZone z d := by
  simp [State.setZone]

@[simp] theorem State.acceptRange_ranges (s : State) (l : List Byte) (alive : BitVec 4) :
    (s.acceptRange l alive).vehicle.ranges = rangeValues l := by
  simp [State.acceptRange]

@[simp] theorem State.acceptRange_guide (s : State) (l : List Byte) (alive : BitVec 4) :
    (s.acceptRange l alive).guide =
      s.guide.setZone (zoneOf s.settings.guide (rangeValues l)) (nearest (rangeValues l)) := by
  simp [State.acceptRange]

/-- R101, R104: outside STANDBY an accepted message of any kind is handed to its readers, the buffer cleared. -/
theorem exec_messageBoundary_of_accepted {s : State} {k : Kind} {alive : BitVec 4} (on : s.link.on = true)
    (message : s.link.buf ≠ []) (awake : s.runState ≠ .standby)
    (accepted : judgeMessage s.link s.vehicle.kinds = .accept k alive) :
    exec .messageBoundary s = .next ((s.modLink Receiver.clear).accept k s.link.buf alive) := by
  have runs : exec .messageBoundary s = execMessageBoundary s := rfl
  simp [runs, execMessageBoundary, State.deliver, on, message, awake, accepted]

/-- Settles O37: the message is handed to the RANGE reader, which sets the record to the nearest of the distances kept
and to their zone. -/
theorem rangeMessagesSetTheParkingZone : Obligations.RangeMessagesSetTheParkingZone := by
  intro s alive on message awake accepted
  refine ⟨_, exec_messageBoundary_of_accepted on message awake accepted, ?_⟩
  have ranges : ((s.modLink Receiver.clear).accept .range s.link.buf alive).vehicle.ranges = rangeValues s.link.buf :=
    State.acceptRange_ranges ..
  have guide : ((s.modLink Receiver.clear).accept .range s.link.buf alive).guide =
      s.guide.setZone (zoneOf s.settings.guide (rangeValues s.link.buf)) (nearest (rangeValues s.link.buf)) :=
    State.acceptRange_guide ..
  rw [ranges, guide]
  refine ⟨rangeValues_eq _, fun v => nearest_eq_some_iff, nearest_eq_none_iff, zoneOf_of_all_faults,
    fun heard => ⟨zoneOf_of_no_distance heard, fun v near => ?_⟩⟩
  have zone := zoneOf_of_nearest (st := s.settings.guide) near
  refine ⟨fun far => ?_, fun close at_near => ?_, fun close past_near => ?_⟩
  · exact zone.trans (if_pos far)
  · exact zone.trans ((if_neg (by omega)).trans (if_pos at_near))
  · exact zone.trans ((if_neg (by omega)).trans (if_neg (by omega)))

end Sys2Proof.Machine
end

