-- ==== Sys2Proof/Proofs/RegisterWindow.lean ====
section
/-! The register window as the host sees it (R164 to R166): what a write to BOOKADDR leaves, the START that takes it, and
what a read of each register returns, CTRL and STATE field by field (Table 11-10). -/

namespace Sys2Proof.Machine

/-! ## Writes to BOOKADDR and to STATE -/

/-! The two halves of BOOKADDR as numbers. -/

theorem toNat_append_words (hi lo : Word) : (hi ++ lo : BitVec 64).toNat = hi.toNat * 2 ^ 32 + lo.toNat := by
  rw [BitVec.toNat_append, ← Nat.shiftLeft_add_eq_or_of_lt lo.isLt, Nat.shiftLeft_eq]

theorem toNat_low_half (a : BitVec 64) : (a.extractLsb' 0 32).toNat = a.toNat % 2 ^ 32 := by
  rw [BitVec.extractLsb'_toNat, Nat.shiftRight_zero]

theorem toNat_high_half (a : BitVec 64) : (a.extractLsb' 32 32).toNat = a.toNat / 2 ^ 32 := by
  rw [BitVec.extractLsb'_toNat, Nat.shiftRight_eq_div_pow, Nat.mod_eq_of_lt (by omega)]

theorem bookAddrAfter_low (old : BitVec 64) (v : Word) :
    bookAddrAfter old (.low v) = (old.extractLsb' 32 32 ++ v : BitVec 64) := by
  apply BitVec.eq_of_toNat_eq
  rw [bookAddrAfter, BitVec.toNat_ofNat, toNat_append_words, toNat_high_half]
  omega

theorem bookAddrAfter_high (old : BitVec 64) (v : Word) :
    bookAddrAfter old (.high v) = (v ++ old.extractLsb' 0 32 : BitVec 64) := by
  apply BitVec.eq_of_toNat_eq
  rw [bookAddrAfter, BitVec.toNat_ofNat, toNat_append_words, toNat_low_half]
  omega

/-- R164: in OFF the register takes the write and nothing else changes. -/
theorem exec_bookaddrWrite_of_off {s : State} (off : s.runState = .off) (w : BookWrite) :
    exec (.bookaddrWrite w) s =
      .next { s with regs := { s.regs with bookAddr := bookAddrAfter s.regs.bookAddr w } } :=
  congrArg Host.Outcome.next (if_pos off)

/-- R164: in every other run state the write is ignored. -/
theorem exec_bookaddrWrite_of_not_off {s : State} (on : s.runState ≠ .off) (w : BookWrite) :
    exec (.bookaddrWrite w) s = .next s :=
  congrArg Host.Outcome.next (if_neg on)

/-- R164: STATE is read only. -/
theorem exec_registerWrite_state (s : State) (v : BitVec 64) : exec (.registerWrite 0x0C 4 v) s = .next s := rfl

/-- R168: a START in OFF enters STARTING. -/
theorem exec_start_of_off {s : State} (off : s.runState = .off) (stopped : s.regs.run = false) :
    exec .start s = .next s.enterStarting := by
  have runs : exec .start s = .next (s.writeRun true) := rfl
  simp [runs, State.writeRun, off, stopped]

@[simp] theorem State.enterStarting_book (s : State) : s.enterStarting.book = s.regs.bookAddr.toNat := rfl

@[simp] theorem State.enterStarting_bookAddr (s : State) : s.enterStarting.regs.bookAddr = s.regs.bookAddr := rfl

/-! ## Codes: each fits the bits its field has in CTRL or STATE (Tables 11-9 and 11-10) -/

theorem boolCode_lt (b : Bool) : boolCode b < 2 ^ 1 := by cases b <;> decide

theorem RunState.code_lt (r : RunState) : r.code < 2 ^ 3 := by cases r <;> decide

theorem TakeoverState.code_lt (t : TakeoverState) : t.code < 2 ^ 2 := by cases t <;> decide

theorem viewCode_lt (v : Option View) : viewCode v < 2 ^ 2 := by rcases v with _ | (_ | _ | _) <;> decide

theorem StartResult.code_lt (r : StartResult) : r.code < 2 ^ 3 := by cases r <;> decide

/-! ## Reads, register by register -/

section
variable (s : State)

theorem State.readReg_bookAddr : s.readReg 0x00 8 = s.regs.bookAddr.toNat := rfl

theorem State.readReg_bookAddr_low : s.readReg 0x00 4 = (s.regs.bookAddr.extractLsb' 0 32).toNat :=
  (toNat_low_half _).symm

theorem State.readReg_bookAddr_high : s.readReg 0x04 4 = (s.regs.bookAddr.extractLsb' 32 32).toNat :=
  (toNat_high_half _).symm

theorem State.readReg_ctrl : s.readReg 0x08 4 = s.ctrlWord.toNat := rfl

theorem State.readReg_state : s.readReg 0x0C 4 = s.stateWord.toNat := rfl

theorem State.readReg_notice : s.readReg 0x10 4 = s.regs.notice.toNat := rfl

theorem State.readReg_noticeMask : s.readReg 0x14 4 = s.regs.noticeMask.toNat := rfl

/-! ## CTRL, bit by bit -/

/-- R165: bits 0 to 3 of CTRL are its level bits. -/
theorem State.ctrlWord_level_bits :
    s.ctrlWord.getLsbD 0 = s.regs.run ∧ s.ctrlWord.getLsbD 1 = s.regs.standby ∧
    s.ctrlWord.getLsbD 2 = s.regs.freeze ∧ s.ctrlWord.getLsbD 3 = s.regs.irqEnable := by
  have digits : ∀ b0 b1 b2 b3 : Bool,
      let w := BitVec.ofNat 32 (boolCode b0 + 2 * boolCode b1 + 4 * boolCode b2 + 8 * boolCode b3)
      w.getLsbD 0 = b0 ∧ w.getLsbD 1 = b1 ∧ w.getLsbD 2 = b2 ∧ w.getLsbD 3 = b3 := by decide
  exact digits ..

theorem State.ctrlWord_toNat_lt : s.ctrlWord.toNat < 2 ^ 4 := by
  have run := boolCode_lt s.regs.run
  have standby := boolCode_lt s.regs.standby
  have freeze := boolCode_lt s.regs.freeze
  have irq := boolCode_lt s.regs.irqEnable
  rw [State.ctrlWord, BitVec.toNat_ofNat]
  omega

/-- R165: the action bits and the bits that are not assigned read 0. -/
theorem State.ctrlWord_other_bits (k : Nat) : s.ctrlWord.getLsbD (k + 4) = false :=
  Nat.testBit_lt_two_pow (Nat.lt_of_lt_of_le s.ctrlWord_toNat_lt (Nat.pow_le_pow_right (by decide) (Nat.le_add_left 4 k)))

theorem State.ctrlWord_getLsbD (k : Nat) :
    s.ctrlWord.getLsbD k =
      if k = 0 then s.regs.run else if k = 1 then s.regs.standby else if k = 2 then s.regs.freeze
      else if k = 3 then s.regs.irqEnable else false := by
  obtain ⟨run, standby, freeze, irq⟩ := s.ctrlWord_level_bits
  match k with
  | 0 => exact run
  | 1 => exact standby
  | 2 => exact freeze
  | 3 => exact irq
  | k + 4 =>
    rw [s.ctrlWord_other_bits, if_neg (by omega), if_neg (by omega), if_neg (by omega), if_neg (by omega)]

/-! ## STATE, field by field -/

theorem State.stateWord_toNat :
    s.stateWord.toNat =
      (s.runState.code + 8 * boolCode s.status.frozen + 16 * s.takeover.state.code + 64 * viewCode s.takeover.view +
        256 * s.regs.startResult.code + 2048 * boolCode s.regs.guideRejected + 65536 * s.regs.startDetail) % 2 ^ 32 :=
  rfl

/-- The field of `bits` bits of STATE that begins at bit `low`, as the host reads it. -/
def State.stateField (low bits : Nat) : Nat := s.readReg 0x0C 4 / 2 ^ low % 2 ^ bits

/-- R166, Table 11-10: no code reaches beyond its own field, so each field reads the code that was put there. -/
theorem State.stateField_eq :
    s.stateField 0 3 = s.runState.code ∧ s.stateField 3 1 = boolCode s.status.frozen ∧
    s.stateField 4 2 = s.takeover.state.code ∧ s.stateField 6 2 = viewCode s.takeover.view ∧
    s.stateField 8 3 = s.regs.startResult.code ∧ s.stateField 11 1 = boolCode s.regs.guideRejected ∧
    s.stateField 12 4 = 0 ∧ s.stateField 16 8 = s.regs.startDetail % 256 ∧
    s.stateField 24 8 = s.regs.startDetail / 256 % 256 := by
  have run := s.runState.code_lt
  have frozen := boolCode_lt s.status.frozen
  have takeover := s.takeover.state.code_lt
  have view := viewCode_lt s.takeover.view
  have result := s.regs.startResult.code_lt
  have guide := boolCode_lt s.regs.guideRejected
  simp only [State.stateField, State.readReg_state, State.stateWord_toNat]
  refine ⟨?_, ?_, ?_, ?_, ?_, ?_, ?_, ?_, ?_⟩ <;> omega

end

/-- Settles O4: a BOOKADDR write and a START are each their case of the run state, each register's read is its value, and
the fields of CTRL and STATE are the digits of those values. -/
theorem bookAddressIsTakenInOff : Obligations.BookAddressIsTakenInOff := by
  intro s w
  obtain ⟨run, frozen, takeover, view, result, guide, gap, detail, top⟩ := s.stateField_eq
  refine ⟨?_, exec_registerWrite_state s,
    fun off stopped => ⟨_, exec_start_of_off off stopped, s.enterStarting_book, s.enterStarting_bookAddr⟩,
    s.readReg_bookAddr, s.readReg_bookAddr_low, s.readReg_bookAddr_high, s.readReg_ctrl, s.readReg_state,
    s.readReg_notice, s.readReg_noticeMask, s.ctrlWord_getLsbD,
    run.trans ?_, frozen, takeover.trans ?_, view.trans ?_, result.trans ?_, guide, gap, detail,
    fun ok => ?_⟩
  · split
    case isTrue off =>
      rw [exec_bookaddrWrite_of_off off]
      cases w with
      | whole v => rfl
      | low v => rw [bookAddrAfter_low]
      | high v => rw [bookAddrAfter_high]
    case isFalse on => exact exec_bookaddrWrite_of_not_off on w
  · cases s.runState <;> rfl
  · cases s.takeover.state <;> rfl
  · rcases s.takeover.view with _ | (_ | _ | _) <;> rfl
  · cases s.regs.startResult <;> rfl
  · have index := ok.index
    exact ⟨detail.trans (by omega), top.trans (by omega)⟩

end Sys2Proof.Machine
end
